-- ==== Sys2Proof/Word.lean ====
section
/-! DEFINITION. The three word types of the hardware (spec 00_scope.md R5, R8): a byte is 8 bits, a bus address is 3 bits,
the two interrupt lines are 2 bits. Everything is unsigned; a line level is a Bool, true for level 1 (R7). -/

namespace Sys2Proof

/-- `Byte` of R8: 8-bit unsigned. -/
abbrev Byte := BitVec 8

/-- `Addr` of R8: 3-bit unsigned, 0 to 7 (R31: no address outside can be presented). -/
abbrev Addr := BitVec 3

/-- The levels of the two interrupt lines (R16, R21). -/
abbrev Irq := BitVec 2

end Sys2Proof
end

