-- ==== Sys2Proof/Machine/Bus.lean ====
section
/-! DEFINITION. What comes from outside the hardware: the levels of the input lines at a tick (10_state.md R21, 00_scope.md R8) and
the moves of the two outside agents, the bus master and the host (00_scope.md R4, 20_memory.md R45). -/

namespace Sys2Proof.Machine

/-- One level for each of the six input lines. The pin record `P` of a tick (R8), the sampler registers (R15, R16) and every
stage of the synchronizer chain (R73) are such records. -/
structure Lines where
  /-- chip-select, true is asserted (R7) -/
  cs : Bool
  /-- read-strobe, active low: false is asserted (R7) -/
  rdN : Bool
  /-- write-strobe, active low: false is asserted (R7) -/
  wrN : Bool
  /-- the three address lines, line `i` is bit `i` (R21) -/
  a : Addr
  /-- the eight data lines, input side, line `i` is bit `i` (R21) -/
  d : Byte
  /-- the two interrupt lines (R16) -/
  irq : Irq
deriving DecidableEq, Repr, Inhabited

/-- One move of an outside agent (R4, R45). `tick` and `hostPop` are the spec's two steps; the others name runs of them: a host
loop iteration (R141: three reads an event) and the pseudo-operations RD and WR (R62). -/
inductive Input where
  /-- a clock tick at which the pins hold `p` -/
  | tick (p : Lines)
  /-- the host reads one byte -/
  | hostPop
  /-- the host reads three bytes, one event -/
  | hostEvent
  /-- the bus master performs `RD a` -/
  | busRead (a : Addr)
  /-- the bus master performs `WR a, d` -/
  | busWrite (a : Addr) (d : Byte)
deriving DecidableEq, Repr, Inhabited

end Sys2Proof.Machine
end

