-- ==== Sys2Proof/Config.lean ====
section
/-! DEFINITION. What an implementation or the outside world fixes and the spec leaves open. Every constant but `chDepth` has no
body: no proof can see what it is, so a claim holds whatever it is. -/

namespace Sys2Proof.Config

/-- CH_DEPTH less one. The spec gives no number (00_scope.md R5, D3; 93 U12; DESIGN CHOICE, log 2). -/
opaque chDepthLessOne : Nat

/-- CH_DEPTH of this hardware: any natural number that is at least 1 (43_framer.md R128). -/
def chDepth : Nat := chDepthLessOne + 1

/-- The move the outside agents make when none is written in the state: pin levels, who moves and when are free
(00_scope.md R4, 20_memory.md R45, 93 U10, U11; log 1). -/
opaque environment : Nat → Machine.Input

/-- `ch_din` in a tick with `ch_we = 0`: any value (10_state.md R18; log 24). -/
opaque chDinIdle : Nat → Byte

end Sys2Proof.Config
end

