-- ==== Sys2Proof/Syntax.lean ====
section
/-! DEFINITION. The rows of spec/opcode_table.json as one inductive: 18 STEP rows (30_encoding.md R52), 8 BUSCTL values (R51),
5 FRAME rows (R53, R54), EVENT (R142), SAMPLE (40_sampler.md R71) and HostPop (44_host_decoder.md R141). A STEP or BUSCTL
row has no operand: the bits it does not fix are either level and change nothing. A frame carries its address byte and its
data byte as they stand on the channel. -/

namespace Sys2Proof

/-- One constructor per row of the opcode table, in the table's order. -/
inductive Instr where
  | idleRd           -- IDLE.RD, R82
  | idleWr           -- IDLE.WR, R83
  | idleHoldNsel     -- IDLE.HOLD, not selected, R84
  | idleHoldRel      -- IDLE.HOLD, selected and released, R84
  | idleStallRd      -- IDLE.STALL, read requested, R85
  | idleStallWr      -- IDLE.STALL, write requested, R85
  | prepareRd        -- PREPARE.RD, R86
  | prepareWr        -- PREPARE.WR, R87
  | prepareWait      -- PREPARE.WAIT, R88
  | prepareStallRd   -- PREPARE.STALL, read-strobe low, R89
  | prepareStallWr   -- PREPARE.STALL, write-strobe low, R89
  | readExec         -- READ.EXEC, R90
  | readStall        -- READ.STALL, R91
  | writeExec        -- WRITE.EXEC, R92
  | writeStall       -- WRITE.STALL, R93
  | cleanupWaitRd    -- CLEANUP.WAIT, read-strobe low, R94
  | cleanupWaitWr    -- CLEANUP.WAIT, write-strobe low, R94
  | cleanupDone      -- CLEANUP.DONE, R95
  | readTrace (addr data : Byte)    -- READ_TRACE, tag 0x03, R53, R96
  | writeTrace (addr data : Byte)   -- WRITE_TRACE, tag 0x04, R53, R97
  | nop (addr data : Byte)          -- reserved tag 0x00, R57
  | read (addr data : Byte)         -- reserved tag 0x01, R57
  | write (addr data : Byte)        -- reserved tag 0x02, R57
  | busctl0          -- not selected, both strobes low, R51
  | busctl1          -- not selected, read-strobe low
  | busctl2          -- not selected, write-strobe low
  | busctl3          -- not selected, released
  | busctl4          -- selected, both strobes low (out of spec)
  | busctl5          -- selected, read-strobe low
  | busctl6          -- selected, write-strobe low
  | busctl7          -- selected, released
  | sample           -- SAMPLE, R71
  | hostPop          -- HostPop, R141
  | event (tag addr data : Byte)    -- EVENT, R142
deriving DecidableEq, Repr

end Sys2Proof
end

