-- ==== Sys2Proof/WellFormed.lean ====
section
/-! DEFINITION. Which terms of Instr are instructions of the spec. The one check: bits 15 to 11 of the two frames the hardware
emits are zero (30_encoding.md R53), so their address byte is 0x00 to 0x07 (R55). The reserved frames and an event are three
bytes of any value (R57, R58, R143); the other rows have no operand. -/

namespace Sys2Proof

/-- An address byte of an emitted frame: bits 7 to 3 are 0 (R55). -/
def addrByteOk (b : Byte) : Bool := b &&& 0xF8 == 0

/-- The well-formedness check, one arm per constructor that has operands. -/
def Instr.wf : Instr → Bool
  | .readTrace addr _ => addrByteOk addr
  | .writeTrace addr _ => addrByteOk addr
  | .nop _ _ | .read _ _ | .write _ _ => true
  | .event _ _ _ => true
  | .idleRd | .idleWr | .idleHoldNsel | .idleHoldRel | .idleStallRd | .idleStallWr => true
  | .prepareRd | .prepareWr | .prepareWait | .prepareStallRd | .prepareStallWr => true
  | .readExec | .readStall | .writeExec | .writeStall => true
  | .cleanupWaitRd | .cleanupWaitWr | .cleanupDone => true
  | .busctl0 | .busctl1 | .busctl2 | .busctl3 | .busctl4 | .busctl5 | .busctl6 | .busctl7 => true
  | .sample | .hostPop => true

end Sys2Proof
end

