-- ==== Sys2Proof/Decode.lean ====
section
/-! DEFINITION. The decoders of the four fixed-length formats of 30_encoding.md R50 (BUSCTL 3 bits, STEP 7 bits, FRAME and EVENT
24 bits), each total and refusing by name, and after them the encoder. A word is a number whose bit 0 is its least
significant bit (00_scope.md R8); a frame's first byte is its most significant (20_memory.md R33). -/

namespace Sys2Proof

/-- The formats of R50. -/
inductive Format where
  | busctl
  | step
  | frame
  | event
deriving DecidableEq, Repr

/-- The length of a format in bits (R50). -/
def Format.bits : Format → Nat
  | .busctl => 3
  | .step => 7
  | .frame => 24
  | .event => 24

/-- Why a decoder refuses a word. -/
inductive Reject where
  /-- a STEP word whose `ph` field is 5, 6 or 7 (R60) -/
  | reservedPhase
  /-- a FRAME word whose tag is outside the enumeration, 0x05 to 0xFF (R58) -/
  | unknownTag
  /-- a READ_TRACE or WRITE_TRACE word with a bit of 15 to 11 set (R53) -/
  | addressBits
  /-- fewer than three bytes where a frame or an event is read (R50: always exactly 3 bytes) -/
  | truncated
  /-- a number that does not fit the format's length -/
  | tooWide
deriving DecidableEq, Repr

/-- A row of the selection table of R52: a step vector `v` matches it when `v &&& mask = pattern`. -/
structure StepRow where
  instr : Instr
  mask : BitVec 7
  pattern : BitVec 7
deriving DecidableEq, Repr

/-- R52, the rows of phase IDLE. -/
def stepRowsIdle : List StepRow :=
  [⟨.idleRd, 0x7E, 0x0C⟩, ⟨.idleWr, 0x7F, 0x0E⟩, ⟨.idleHoldNsel, 0x74, 0x00⟩, ⟨.idleHoldRel, 0x77, 0x07⟩,
   ⟨.idleStallRd, 0x7E, 0x04⟩, ⟨.idleStallWr, 0x7F, 0x06⟩]

/-- R52, the rows of phase PREPARE. -/
def stepRowsPrepare : List StepRow :=
  [⟨.prepareRd, 0x7A, 0x18⟩, ⟨.prepareWr, 0x7B, 0x1A⟩, ⟨.prepareWait, 0x73, 0x13⟩, ⟨.prepareStallRd, 0x7A, 0x10⟩,
   ⟨.prepareStallWr, 0x7B, 0x12⟩]

/-- R52, the rows of phases READ and WRITE. -/
def stepRowsData : List StepRow :=
  [⟨.readExec, 0x78, 0x28⟩, ⟨.readStall, 0x78, 0x20⟩, ⟨.writeExec, 0x78, 0x38⟩, ⟨.writeStall, 0x78, 0x30⟩]

/-- R52, the rows of phase CLEANUP. -/
def stepRowsCleanup : List StepRow :=
  [⟨.cleanupWaitRd, 0x72, 0x40⟩, ⟨.cleanupWaitWr, 0x73, 0x42⟩, ⟨.cleanupDone, 0x73, 0x43⟩]

/-- R52, the whole selection table. -/
def stepRows : List StepRow := stepRowsIdle ++ stepRowsPrepare ++ stepRowsData ++ stepRowsCleanup

/-- `(v & mask) = match` of R52. -/
def StepRow.hit (r : StepRow) (v : BitVec 7) : Bool := v &&& r.mask == r.pattern

/-- The step operation a step vector selects (R52); the phase codes 5, 6 and 7 are refused (R60). -/
def decodeStep (v : BitVec 7) : Except Reject Instr :=
  match stepRows.find? (fun r => r.hit v) with
  | some r => .ok r.instr
  | none => .error .reservedPhase

/-- The BUSCTL row of the three sampled control lines `cs_s`, `rd_n_s`, `wr_n_s` (R51: bits 2, 1, 0). -/
def busctlOf (cs rdN wrN : Bool) : Instr :=
  match cs, rdN, wrN with
  | false, false, false => .busctl0
  | false, false, true => .busctl1
  | false, true, false => .busctl2
  | false, true, true => .busctl3
  | true, false, false => .busctl4
  | true, false, true => .busctl5
  | true, true, false => .busctl6
  | true, true, true => .busctl7

/-- BUSCTL (R51); no value is illegal (R59). -/
def decodeBusctl (v : BitVec 3) : Instr := busctlOf (v.getLsbD 2) (v.getLsbD 1) (v.getLsbD 0)

/-- FRAME (R53, R54): the tag selects the row, the two emitted frames have a 3-bit address in their address byte. -/
def decodeFrame (tag addr data : Byte) : Except Reject Instr :=
  if tag = 0x03 then
    if addrByteOk addr then .ok (.readTrace addr data) else .error .addressBits
  else if tag = 0x04 then
    if addrByteOk addr then .ok (.writeTrace addr data) else .error .addressBits
  else if tag = 0x00 then .ok (.nop addr data)
  else if tag = 0x01 then .ok (.read addr data)
  else if tag = 0x02 then .ok (.write addr data)
  else .error .unknownTag

/-- EVENT on the channel's bytes (R142): any three consecutive bytes, nothing validated (R143). -/
def decodeEvent : List Byte → Except Reject (Instr × List Byte)
  | tag :: addr :: data :: rest => .ok (.event tag addr data, rest)
  | _ => .error .truncated

/-- FRAME on the channel's bytes, tag first (R33, R53). -/
def decodeFrameBytes : List Byte → Except Reject (Instr × List Byte)
  | tag :: addr :: data :: rest =>
    match decodeFrame tag addr data with
    | .ok i => .ok (i, rest)
    | .error e => .error e
  | _ => .error .truncated

/-- Byte 0 (bits 23 to 16), byte 1 (bits 15 to 8) and byte 2 (bits 7 to 0) of a 24-bit frame word (R33, R53). -/
def frameByte0 (w : Nat) : Byte := BitVec.ofNat 8 (w / 65536)
/-- See `frameByte0`. -/
def frameByte1 (w : Nat) : Byte := BitVec.ofNat 8 (w / 256)
/-- See `frameByte0`. -/
def frameByte2 (w : Nat) : Byte := BitVec.ofNat 8 w

/-- The 24-bit number of three bytes, the first most significant (R33). -/
def frameWord (b0 b1 b2 : Byte) : Nat := b0.toNat * 65536 + b1.toNat * 256 + b2.toNat

/-- The instruction a word of a format stands for. -/
def decode (f : Format) (w : Nat) : Except Reject Instr :=
  if 2 ^ f.bits ≤ w then .error .tooWide
  else match f with
    | .busctl => .ok (decodeBusctl (BitVec.ofNat 3 w))
    | .step => decodeStep (BitVec.ofNat 7 w)
    | .frame => decodeFrame (frameByte0 w) (frameByte1 w) (frameByte2 w)
    | .event => .ok (.event (frameByte0 w) (frameByte1 w) (frameByte2 w))

/-- The instruction of a table word of `nbits` bits. The formats overlap as numbers, so the length tells them apart: 3 bits is
BUSCTL, 7 bits (8 when rounded up to whole bytes) is STEP, which contains BUSCTL; 24 bits is a FRAME row, and EVENT where no
FRAME row matches (DESIGN CHOICE, log 22). SAMPLE and HostPop have no encoding. -/
def decodeTableWord (nbits w : Nat) : Option Instr :=
  if nbits = 3 then (decode .busctl w).toOption
  else if nbits = 7 ∨ nbits = 8 then (decode .step w).toOption
  else if nbits = 24 then
    match decode .frame w with
    | .ok i => some i
    | .error _ => (decode .event w).toOption
  else none

/-! The encoder, from the same tables. A STEP row is encoded with its don't-care bits 0. -/

/-- The format and word of an instruction; none for SAMPLE and HostPop, which have no encoding (R71, R141). -/
def encode : Instr → Option (Format × Nat)
  | .idleRd => some (.step, 0x0C)
  | .idleWr => some (.step, 0x0E)
  | .idleHoldNsel => some (.step, 0x00)
  | .idleHoldRel => some (.step, 0x07)
  | .idleStallRd => some (.step, 0x04)
  | .idleStallWr => some (.step, 0x06)
  | .prepareRd => some (.step, 0x18)
  | .prepareWr => some (.step, 0x1A)
  | .prepareWait => some (.step, 0x13)
  | .prepareStallRd => some (.step, 0x10)
  | .prepareStallWr => some (.step, 0x12)
  | .readExec => some (.step, 0x28)
  | .readStall => some (.step, 0x20)
  | .writeExec => some (.step, 0x38)
  | .writeStall => some (.step, 0x30)
  | .cleanupWaitRd => some (.step, 0x40)
  | .cleanupWaitWr => some (.step, 0x42)
  | .cleanupDone => some (.step, 0x43)
  | .readTrace addr data => some (.frame, frameWord 0x03 addr data)
  | .writeTrace addr data => some (.frame, frameWord 0x04 addr data)
  | .nop addr data => some (.frame, frameWord 0x00 addr data)
  | .read addr data => some (.frame, frameWord 0x01 addr data)
  | .write addr data => some (.frame, frameWord 0x02 addr data)
  | .busctl0 => some (.busctl, 0)
  | .busctl1 => some (.busctl, 1)
  | .busctl2 => some (.busctl, 2)
  | .busctl3 => some (.busctl, 3)
  | .busctl4 => some (.busctl, 4)
  | .busctl5 => some (.busctl, 5)
  | .busctl6 => some (.busctl, 6)
  | .busctl7 => some (.busctl, 7)
  | .sample => none
  | .hostPop => none
  | .event tag addr data => some (.event, frameWord tag addr data)

end Sys2Proof
end

