-- ==== Sys2Proof/Machine/Memory.lean ====
section
/-! DEFINITION. The Register File as memory (10_state.md R10, 20_memory.md R30 to R37): the bus address space is 8 bytes, addresses 0
to 7, and nothing else. It is a list of (address, byte) cells in one canonical form: addresses strictly rising and below 8,
no entry equal to what an unlisted address reads as. -/

namespace Sys2Proof.Machine

/-- The Register File's contents. -/
abbrev Memory := List Host.Cell

/-- What an unlisted address reads as: "Register File contents at power-on: all 8 entries equal 0." (R24). -/
def unlisted : Byte := 0

/-- RF_N, the number of entries (R5). -/
def rfN : Nat := 8

/-- The byte at an address. -/
def Memory.readAt : Memory → Nat → Byte
  | [], _ => unlisted
  | (k, v) :: m, a => if k = a then v else Memory.readAt m a

/-- The contents without any entry at an address. -/
def Memory.dropAt : Memory → Nat → Memory
  | [], _ => []
  | (k, v) :: m, a => if k = a then Memory.dropAt m a else (k, v) :: Memory.dropAt m a

/-- A cell put before the first entry of a greater address. -/
def Memory.insertAt : Memory → Nat → Byte → Memory
  | [], a, b => [(a, b)]
  | (k, v) :: m, a, b => if a < k then (a, b) :: (k, v) :: m else (k, v) :: Memory.insertAt m a b

/-- The contents with the byte at an address replaced, in canonical form: a byte equal to `unlisted` leaves no entry. -/
def Memory.writeAt (m : Memory) (a : Nat) (b : Byte) : Memory :=
  if b = unlisted then Memory.dropAt m a else Memory.insertAt (Memory.dropAt m a) a b

/-- `MemRead(a, 1)` of R8, `rf[a]`. -/
def Memory.read (m : Memory) (a : Addr) : Byte := Memory.readAt m a.toNat

/-- `MemWrite(a, 1, v)` of R8, `rf[a] <- v`. -/
def Memory.write (m : Memory) (a : Addr) (b : Byte) : Memory := Memory.writeAt m a.toNat b

/-- The canonical form. -/
def Memory.wf : Memory → Bool
  | [] => true
  | (k, v) :: m => decide (k < rfN) && !(v == unlisted) && m.all (fun c => decide (k < c.1)) && Memory.wf m

end Sys2Proof.Machine
end

