-- ==== Sys2Proof/Machine/State.lean ====
section
/-! DEFINITION. The whole state of the machine (10_state.md R25), the synchronizer's earlier stages (40_sampler.md R73), the parameter
CH_DEPTH and the pending inputs, as plain data, with the state before tick 0 (70_reset_and_hazards.md R170). -/

namespace Sys2Proof.Machine

/-- The Cycle Decoder's five phases (R11). Codes 5, 6 and 7 cannot be written down (R60). -/
inductive Phase where
  | idle
  | prepare
  | read
  | write
  | cleanup
deriving DecidableEq, Repr, Inhabited

/-- An event: three raw bytes in the order they were popped (44_host_decoder.md R142, R143). -/
structure Event where
  tag : Byte
  addr : Byte
  data : Byte
deriving DecidableEq, Repr

/-- The machine's state. `rf` to `log` are the record of R25; `sync` is R73's chain; `chDepth`, `pins`, `inputs` and `moves`
are the model's own (parameter and inputs of the step, R22). -/
structure State where
  /-- the Register File `rf[0..7]` (R10) -/
  rf : Memory
  /-- the phase register `ph` (R11) -/
  ph : Phase
  /-- `addr_latch` (R12) -/
  addrLatch : Addr
  /-- `oe`, the data-output driver's enable (R13) -/
  oe : Bool
  /-- `dout`, the value the driver puts on the data lines (R14) -/
  dout : Byte
  /-- the sampler registers `cs_s`, `rd_n_s`, `wr_n_s`, `a_s`, `d_s`, `irq_s` (R15, R16): the last stage of the synchronizer -/
  smp : Lines
  /-- the earlier stages `x_1 .. x_(S-1)` of the synchronizer, the one next to the pins first; SYNC_STAGES is their number
  plus one (R73) -/
  sync : List Lines
  /-- the outbound channel `ch`, head first (R17) -/
  ch : List Byte
  /-- the bytes the host has read of the event it is assembling (R20) -/
  hb : List Byte
  /-- the events the host has reported (R20) -/
  log : List Event
  /-- CH_DEPTH (R5, R128); no step writes it -/
  chDepth : Nat
  /-- the pin record `P` of the tick being taken (R8) -/
  pins : Lines
  /-- the outside agents' moves already known, the next one first -/
  inputs : List Input
  /-- how many moves have been taken; tells the free environment's moves apart -/
  moves : Nat
deriving DecidableEq, Repr

/-- Why the machine stops with a fault. It has no constructor: the hardware raises no exception and has no error type
(60_exceptions.md R150; 93 part 1, "No point is treated as fault"). -/
inductive Fault
deriving DecidableEq, Repr

/-- Why there is no next state. -/
inductive Refusal where
  /-- `exec` has no meaning for the instruction; raised by an arm of `exec` only; safe, the machine stops. -/
  | notModelled (mnemonic : String)
  /-- The fetched word is no instruction; raised by `step`. No state raises it, because `ph` is one of the five phases (R60, R80);
  safe, the machine stops. -/
  | undecodable (why : Reject)
deriving DecidableEq, Repr

/-- The released bus of `REL` (30_encoding.md R62): `0 1 1 0 00`, interrupt lines 0. Also the sampler's reset value (R25). -/
def Lines.released : Lines := { cs := false, rdN := true, wrN := true, a := 0, d := 0, irq := 0 }

/-- The state before tick 0 (R24, R170). The source gives the Register File; the other fields of R25 are the spec's decision D9
(DESIGN CHOICE, log 10); SYNC_STAGES = 1 (R5, log 3), CH_DEPTH open (log 2), nothing pending (log 1). -/
def State.reset : State where
  rf := []
  ph := .idle
  addrLatch := 0
  oe := false
  dout := 0
  smp := Lines.released
  sync := []
  ch := []
  hb := []
  log := []
  chDepth := Config.chDepth
  pins := Lines.released
  inputs := []
  moves := 0

end Sys2Proof.Machine
end

