-- ==== Sys2Proof/Machine/Operands.lean ====
section
/-! DEFINITION. The operand forms: command tags and the assembly of a frame's bytes (30_encoding.md R54 to R56), the phase's code and
the two vectors the Cycle Decoder is selected by (R51, R52), the wire `ready` (10_state.md R18), and the pin records of the
pseudo-operations (R62). -/

namespace Sys2Proof.Machine

/-- Command tags the hardware emits (R54). -/
def tagReadTrace : Byte := 0x03
/-- See `tagReadTrace`. -/
def tagWriteTrace : Byte := 0x04

/-- Command tags that are reserved (R54, R57). -/
def tagNop : Byte := 0x00
/-- See `tagNop`. -/
def tagRead : Byte := 0x01
/-- See `tagNop`. -/
def tagWrite : Byte := 0x02

/-- The address byte of a frame, `zext_8(addr_latch)` (R55). -/
def addrByte (a : Addr) : Byte := a.setWidth 8

/-- The address an address byte names: its bits 2 to 0 (R53, R55). The bus has no line for the others (20_memory.md R31). -/
def addrOfByte (b : Byte) : Addr := b.setWidth 3

/-- The 3-bit encoding of the phase (R11). -/
def Phase.code : Phase → BitVec 3
  | .idle => 0
  | .prepare => 1
  | .read => 2
  | .write => 3
  | .cleanup => 4

/-- The phase of a code; 5, 6 and 7 are never held (R60). -/
def Phase.ofCode (c : BitVec 3) : Option Phase :=
  if c = 0 then some .idle
  else if c = 1 then some .prepare
  else if c = 2 then some .read
  else if c = 3 then some .write
  else if c = 4 then some .cleanup
  else none

/-- The wire `ready`: `len(ch) < CH_DEPTH` before the tick (R18). -/
def State.ready (s : State) : Bool := decide (s.ch.length < s.chDepth)

/-- The step vector `{ph, ready, cs_s, rd_n_s, wr_n_s}` of 7 bits (R52). -/
def stepBits (ph : Phase) (ready cs rdN wrN : Bool) : BitVec 7 :=
  ph.code ++ BitVec.ofBool ready ++ BitVec.ofBool cs ++ BitVec.ofBool rdN ++ BitVec.ofBool wrN

/-- The step vector of the tick that is due (R52). -/
def State.stepVector (s : State) : BitVec 7 := stepBits s.ph s.ready s.smp.cs s.smp.rdN s.smp.wrN

/-- `PIN 1 0 1 a 00`: the pins of a tick of `RD a` with the strobe low (R62). -/
def Lines.reading (a : Addr) : Lines := { cs := true, rdN := false, wrN := true, a := a, d := 0, irq := 0 }

/-- `PIN 1 1 0 a d`: the pins of a tick of `WR a, d` with the strobe low (R62). -/
def Lines.writing (a : Addr) (d : Byte) : Lines := { cs := true, rdN := true, wrN := false, a := a, d := d, irq := 0 }

/-- A bus master's pseudo-operation: four ticks with the strobe low, two with the bus released (R62), and one more released tick
for each synchronizer stage beyond the first, since these delay every line alike (R73). -/
def busScript (active : Lines) (stages : Nat) : List Lines :=
  List.replicate 4 active ++ List.replicate (2 + stages) Lines.released

end Sys2Proof.Machine
end

