-- ==== Sys2Proof/Machine/Ops.lean ====
section
/-! DEFINITION. The named operations over the state: the Signal Sampler, the Framer's push, the Register File's two ports, the Cycle
Decoder's register moves, the host's byte, and the tick of 41_cycle_decoder.md R80 over them. There is no operation that takes an
exception or returns from one: the hardware has none (60_exceptions.md R150, R157). -/

namespace Sys2Proof.Machine

/-! ### Signal Sampler (40_sampler.md) -/

/-- SAMPLE (R71, R73): `x_1 <- P.x`, every later stage takes the stage before it, and the last stage is what the Cycle Decoder
reads. With no earlier stage (SYNC_STAGES = 1) the sampler registers take the pins. -/
def State.sampleLines (s : State) : State :=
  { s with smp := s.sync.getLastD s.pins, sync := (s.pins :: s.sync).dropLast }

/-! ### Framer (43_framer.md) -/

/-- `push(b)`: the byte is appended at the channel's tail (R121). -/
def State.push (b : Byte) (s : State) : State := { s with ch := s.ch ++ [b] }

/-- A step operation that pushes `b` and does `effect` with it; with a full channel it holds, doing none of its effects (R123). -/
def State.pushing (b : Byte) (effect : State → State) (s : State) : State :=
  if s.ready then effect (s.push b) else s

/-! ### Register File ports (42_regfile_ports.md) -/

/-- `rf_rd_addr` and `rf_wr_addr`: both ports are indexed by the latched address in every tick (R111, R112). -/
def State.rfAddr (s : State) : Addr := s.addrLatch

/-- `rf_rd_data`: the entry as it stands before the tick (R111). -/
def State.rfRdData (s : State) : Byte := s.rf.read s.rfAddr

/-- `rf_wr_data`: the sampled data lines (R112). -/
def State.rfWrData (s : State) : Byte := s.smp.d

/-- A write through the write port: the entry at `rf_wr_addr` takes the byte (R112). -/
def State.rfWrite (b : Byte) (s : State) : State := { s with rf := s.rf.write s.rfAddr b }

/-! ### The Cycle Decoder's registers (10_state.md R11 to R14) -/

/-- `ph <- T`. -/
def State.goto (ph : Phase) (s : State) : State := { s with ph := ph }

/-- `addr_latch <- a_s` (R12). -/
def State.latch (s : State) : State := { s with addrLatch := s.smp.a }

/-- `oe <- 0`: the data lines are released (R13). -/
def State.driverOff (s : State) : State := { s with oe := false }

/-- `dout <- v`, `oe <- 1`: the data lines are driven with `v` (R13, R14). -/
def State.drive (v : Byte) (s : State) : State := { s with oe := true, dout := v }

/-! ### What the phases do (41_cycle_decoder.md R80) -/

/-- A transacting branch of IDLE (R82, R83; R85 with a full channel): the driver is off, the tag is pushed, the address is
latched. -/
def State.idleStart (tag : Byte) (s : State) : State :=
  s.driverOff.pushing tag (fun t => t.latch.goto .prepare)

/-- An exit of PREPARE (R86, R87; R89 with a full channel): the address byte is pushed. -/
def State.prepareExit (ph : Phase) (s : State) : State :=
  s.pushing (addrByte s.addrLatch) (fun t => t.goto ph)

/-- READ (R90; R91 with a full channel): the read port's value is driven and pushed. -/
def State.readData (s : State) : State :=
  s.pushing s.rfRdData (fun t => (t.drive s.rfRdData).goto .cleanup)

/-- WRITE (R92; R93 with a full channel): the sampled data lines are written and pushed. -/
def State.writeData (s : State) : State :=
  s.pushing s.rfWrData (fun t => (t.rfWrite s.rfWrData).goto .cleanup)

/-- The Cycle Decoder's part of a tick, R80's case distinction, on control lines at the levels `cs`, `rdN`, `wrN`. In IDLE and in
PREPARE the read-strobe is tested first (R100, R156). -/
def State.cycleDecoder (cs rdN wrN : Bool) (s : State) : State :=
  match s.ph with
  | .idle =>
    if cs && !rdN then s.idleStart tagReadTrace
    else if cs && !wrN then s.idleStart tagWriteTrace
    else s.driverOff
  | .prepare =>
    if !rdN then s.prepareExit .read
    else if !wrN then s.prepareExit .write
    else s
  | .read => s.readData
  | .write => s.writeData
  | .cleanup => if rdN && wrN then s.goto .idle else s

/-- `Tick(Σ, P)` (R80): the Cycle Decoder acts on the sampler registers as they were before the tick, and the sampler takes the
pins. -/
def State.tick (s : State) (p : Lines) : State :=
  { s.cycleDecoder s.smp.cs s.smp.rdN s.smp.wrN with pins := p }.sampleLines

/-- The ticks of a list of pin records, in order. -/
def State.ticks (s : State) (ps : List Lines) : State := ps.foldl State.tick s

/-! ### Host Decoder (44_host_decoder.md) -/

/-- What the host does with a byte it has read: every third completes an event (R141). -/
def State.hostByte (b : Byte) (s : State) : State :=
  match s.hb with
  | tag :: addr :: _ => { s with log := s.log ++ [⟨tag, addr, b⟩], hb := [] }
  | hb => { s with hb := hb ++ [b] }

/-- `HostPop` (R141): the head byte is removed from the channel and read. With the channel empty the blocking read waits, so
nothing changes (DESIGN CHOICE, log 13). -/
def State.popByte (s : State) : State :=
  match s.ch with
  | [] => s
  | b :: rest => { s with ch := rest }.hostByte b

/-- The host reads the three bytes at the channel's head, one HostPop after the other (R141, R142). -/
def State.hostThree (b0 b1 b2 : Byte) (s : State) : State :=
  ({ s with ch := s.ch.drop 3 }.hostByte b0 |>.hostByte b1).hostByte b2

end Sys2Proof.Machine
end

