-- ==== Sys2Proof/Machine/Flags.lean ====
section
/-! DEFINITION. The one-bit conditions of the hardware. It has no condition codes (10_state.md R13, R22); what a rule's "flags
written" line names are `oe` and the wires `ch_we`, `rf_rd_en`, `rf_wr_en` (41_cycle_decoder.md, head of file). The wires of
R18 are functions of the state before a tick. -/

namespace Sys2Proof.Machine

/-- The step operation the coming tick performs (30_encoding.md R52). -/
def State.stepOp (s : State) : Except Reject Instr := decodeStep s.stepVector

/-- The byte a step operation pushes from a state, if it pushes (R81, R120). -/
def State.pushedBy (s : State) : Instr → Option Byte
  | .idleRd => some tagReadTrace
  | .idleWr => some tagWriteTrace
  | .prepareRd | .prepareWr => some (addrByte s.addrLatch)
  | .readExec => some s.rfRdData
  | .writeExec => some s.rfWrData
  | _ => none

/-- The byte pushed in the coming tick, if any. -/
def State.duePush (s : State) : Option Byte :=
  match s.stepOp with
  | .ok i => s.pushedBy i
  | .error _ => none

/-- `ch_we`: 1 exactly in a tick that performs `push` (R18, R122). -/
def State.chWe (s : State) : Bool := s.duePush.isSome

/-- `ch_din`: the byte pushed; any value when `ch_we = 0` (R18). -/
def State.chDin (s : State) : Byte := s.duePush.getD (Config.chDinIdle s.moves)

/-- `rf_rd_en`: 1 exactly in a READ.EXEC tick (R111, R114). -/
def State.rfRdEn (s : State) : Bool :=
  match s.stepOp with
  | .ok .readExec => true
  | _ => false

/-- `rf_wr_en`: 1 exactly in a WRITE.EXEC tick (R112, R114). -/
def State.rfWrEn (s : State) : Bool :=
  match s.stepOp with
  | .ok .writeExec => true
  | _ => false

/-- The levels the hardware puts on the data lines: `dout` while `oe = 1`, nothing while they are released (R13, R21). -/
def State.dataLinesDriven (s : State) : Option Byte := if s.oe then some s.dout else none

end Sys2Proof.Machine
end

