-- ==== Sys2Proof/Machine/BusCtl.lean ====
section
/-! DEFINITION. The eight BUSCTL values (30_encoding.md R51): what the Cycle Decoder does, in the phase it is in, when the sampled
control lines `{cs_s, rd_n_s, wr_n_s}` hold the value. No value is illegal (R59). DESIGN CHOICE, log 19. -/

namespace Sys2Proof.Machine

/-- BUSCTL `0b000`: not selected, both strobes low. -/
def execBusctl0 (s : State) : Host.Outcome State Fault Refusal := .next (s.cycleDecoder false false false)

/-- BUSCTL `0b001`: not selected, read-strobe low. -/
def execBusctl1 (s : State) : Host.Outcome State Fault Refusal := .next (s.cycleDecoder false false true)

/-- BUSCTL `0b010`: not selected, write-strobe low. -/
def execBusctl2 (s : State) : Host.Outcome State Fault Refusal := .next (s.cycleDecoder false true false)

/-- BUSCTL `0b011`: not selected, released. -/
def execBusctl3 (s : State) : Host.Outcome State Fault Refusal := .next (s.cycleDecoder false true true)

/-- BUSCTL `0b100`: selected, both strobes low, treated as a read (R59, R100). -/
def execBusctl4 (s : State) : Host.Outcome State Fault Refusal := .next (s.cycleDecoder true false false)

/-- BUSCTL `0b101`: selected, read-strobe low. -/
def execBusctl5 (s : State) : Host.Outcome State Fault Refusal := .next (s.cycleDecoder true false true)

/-- BUSCTL `0b110`: selected, write-strobe low. -/
def execBusctl6 (s : State) : Host.Outcome State Fault Refusal := .next (s.cycleDecoder true true false)

/-- BUSCTL `0b111`: selected, released. -/
def execBusctl7 (s : State) : Host.Outcome State Fault Refusal := .next (s.cycleDecoder true true true)

end Sys2Proof.Machine
end

