-- ==== Sys2Proof/Machine/BusCycle.lean ====
section
/-! DEFINITION. The two bus cycles as whole operations (41_cycle_decoder.md R96, R97), named by the frame each appends: the ticks of the
bus master's pseudo-operations `RD a` and `WR a, d` (30_encoding.md R62). They are runs of `Tick` and nothing else, so in a
state where the cycle is held up or not seen (a full channel, another cycle in flight) they do what those ticks do (R179). DESIGN CHOICE, log 20. -/

namespace Sys2Proof.Machine

/-- READ_TRACE: the READ bus cycle at the address (R96). The data byte of its frame is what the cycle reports, `rf[a]`, and no
operand of the cycle. -/
def execReadTrace (addr _data : Byte) (s : State) : Host.Outcome State Fault Refusal :=
  .next (s.ticks (busScript (Lines.reading (addrOfByte addr)) s.sync.length))

/-- WRITE_TRACE: the WRITE bus cycle at the address with the data (R97). -/
def execWriteTrace (addr data : Byte) (s : State) : Host.Outcome State Fault Refusal :=
  .next (s.ticks (busScript (Lines.writing (addrOfByte addr) data) s.sync.length))

end Sys2Proof.Machine
end

