-- ==== Sys2Proof/Machine/Cleanup.lean ====
section
/-! DEFINITION. The step operations of phase CLEANUP (41_cycle_decoder.md section 6). -/

namespace Sys2Proof.Machine

/-- CLEANUP.WAIT, read-strobe low: hold (R94). -/
def execCleanupWaitRd (s : State) : Host.Outcome State Fault Refusal := .next s

/-- CLEANUP.WAIT, write-strobe low: hold (R94). -/
def execCleanupWaitWr (s : State) : Host.Outcome State Fault Refusal := .next s

/-- CLEANUP.DONE (R95). -/
def execCleanupDone (s : State) : Host.Outcome State Fault Refusal := .next (s.goto .idle)

end Sys2Proof.Machine
end

