-- ==== Sys2Proof/Machine/HostDecoder.lean ====
section
/-! DEFINITION. The Host Decoder's steps (44_host_decoder.md): one byte, one event, and the frames with a reserved tag, which the
hardware never emits and which the host, validating nothing, regroups like any others (30_encoding.md R57, R58; 93 U3). DESIGN CHOICE, log 21. -/

namespace Sys2Proof.Machine

/-- HostPop (R141). -/
def execHostPop (s : State) : Host.Outcome State Fault Refusal := .next s.popByte

/-- EVENT: the host regroups three consecutive bytes (R142), with no validation (R143). -/
def execEvent (tag addr data : Byte) (s : State) : Host.Outcome State Fault Refusal :=
  .next (s.hostThree tag addr data)

/-- NOP, reserved tag 0x00: no operation is attached to it in the hardware (R57); the host reports it as is. -/
def execNop (addr data : Byte) (s : State) : Host.Outcome State Fault Refusal :=
  .next (s.hostThree tagNop addr data)

/-- READ, reserved tag 0x01; as NOP. -/
def execRead (addr data : Byte) (s : State) : Host.Outcome State Fault Refusal :=
  .next (s.hostThree tagRead addr data)

/-- WRITE, reserved tag 0x02; as NOP. -/
def execWrite (addr data : Byte) (s : State) : Host.Outcome State Fault Refusal :=
  .next (s.hostThree tagWrite addr data)

end Sys2Proof.Machine
end

