-- ==== Sys2Proof/Machine/Idle.lean ====
section
/-! DEFINITION. The step operations of phase IDLE (41_cycle_decoder.md section 2). Each is the operation's own effect; SAMPLE,
which happens in the same tick, is added by `step` (R80). Selecting the operation is the step vector's affair (R52), not
the operation's (DESIGN CHOICE, log 18). -/

namespace Sys2Proof.Machine

/-- IDLE.RD (R82). -/
def execIdleRd (s : State) : Host.Outcome State Fault Refusal := .next (s.idleStart tagReadTrace)

/-- IDLE.WR (R83). -/
def execIdleWr (s : State) : Host.Outcome State Fault Refusal := .next (s.idleStart tagWriteTrace)

/-- IDLE.HOLD, not selected (R84). -/
def execIdleHoldNsel (s : State) : Host.Outcome State Fault Refusal := .next s.driverOff

/-- IDLE.HOLD, selected and released (R84). -/
def execIdleHoldRel (s : State) : Host.Outcome State Fault Refusal := .next s.driverOff

/-- IDLE.STALL, a read requested (R85). -/
def execIdleStallRd (s : State) : Host.Outcome State Fault Refusal := .next s.driverOff

/-- IDLE.STALL, a write requested (R85). -/
def execIdleStallWr (s : State) : Host.Outcome State Fault Refusal := .next s.driverOff

end Sys2Proof.Machine
end

