-- ==== Sys2Proof/Machine/Prepare.lean ====
section
/-! DEFINITION. The step operations of phase PREPARE (41_cycle_decoder.md section 3). -/

namespace Sys2Proof.Machine

/-- PREPARE.RD (R86). -/
def execPrepareRd (s : State) : Host.Outcome State Fault Refusal := .next (s.prepareExit .read)

/-- PREPARE.WR (R87). -/
def execPrepareWr (s : State) : Host.Outcome State Fault Refusal := .next (s.prepareExit .write)

/-- PREPARE.WAIT: hold (R88). -/
def execPrepareWait (s : State) : Host.Outcome State Fault Refusal := .next s

/-- PREPARE.STALL, read-strobe low: hold (R89). -/
def execPrepareStallRd (s : State) : Host.Outcome State Fault Refusal := .next s

/-- PREPARE.STALL, write-strobe low: hold (R89). -/
def execPrepareStallWr (s : State) : Host.Outcome State Fault Refusal := .next s

end Sys2Proof.Machine
end

