-- ==== Sys2Proof/Machine/ReadWrite.lean ====
section
/-! DEFINITION. The step operations of phases READ and WRITE (41_cycle_decoder.md sections 4 and 5). -/

namespace Sys2Proof.Machine

/-- READ.EXEC (R90). -/
def execReadExec (s : State) : Host.Outcome State Fault Refusal := .next s.readData

/-- READ.STALL: hold (R91). -/
def execReadStall (s : State) : Host.Outcome State Fault Refusal := .next s

/-- WRITE.EXEC (R92). -/
def execWriteExec (s : State) : Host.Outcome State Fault Refusal := .next s.writeData

/-- WRITE.STALL: hold (R93). -/
def execWriteStall (s : State) : Host.Outcome State Fault Refusal := .next s

end Sys2Proof.Machine
end

