-- ==== Sys2Proof/Machine/Sampler.lean ====
section
/-! DEFINITION. The Signal Sampler's one operation (40_sampler.md). -/

namespace Sys2Proof.Machine

/-- SAMPLE (R71): all sampler registers are loaded from the pins. -/
def execSample (s : State) : Host.Outcome State Fault Refusal := .next s.sampleLines

end Sys2Proof.Machine
end

