-- ==== Sys2Proof/Machine/Dispatch.lean ====
section
/-! DEFINITION. One arm per row of the opcode table. -/

namespace Sys2Proof.Machine

def exec (i : Instr) (s : State) : Host.Outcome State Fault Refusal :=
  match i with
  | .idleRd => Sys2Proof.Machine.execIdleRd s
  | .idleWr => Sys2Proof.Machine.execIdleWr s
  | .idleHoldNsel => Sys2Proof.Machine.execIdleHoldNsel s
  | .idleHoldRel => Sys2Proof.Machine.execIdleHoldRel s
  | .idleStallRd => Sys2Proof.Machine.execIdleStallRd s
  | .idleStallWr => Sys2Proof.Machine.execIdleStallWr s
  | .prepareRd => Sys2Proof.Machine.execPrepareRd s
  | .prepareWr => Sys2Proof.Machine.execPrepareWr s
  | .prepareWait => Sys2Proof.Machine.execPrepareWait s
  | .prepareStallRd => Sys2Proof.Machine.execPrepareStallRd s
  | .prepareStallWr => Sys2Proof.Machine.execPrepareStallWr s
  | .readExec => Sys2Proof.Machine.execReadExec s
  | .readStall => Sys2Proof.Machine.execReadStall s
  | .writeExec => Sys2Proof.Machine.execWriteExec s
  | .writeStall => Sys2Proof.Machine.execWriteStall s
  | .cleanupWaitRd => Sys2Proof.Machine.execCleanupWaitRd s
  | .cleanupWaitWr => Sys2Proof.Machine.execCleanupWaitWr s
  | .cleanupDone => Sys2Proof.Machine.execCleanupDone s
  | .readTrace addr data => Sys2Proof.Machine.execReadTrace addr data s
  | .writeTrace addr data => Sys2Proof.Machine.execWriteTrace addr data s
  | .nop addr data => Sys2Proof.Machine.execNop addr data s
  | .read addr data => Sys2Proof.Machine.execRead addr data s
  | .write addr data => Sys2Proof.Machine.execWrite addr data s
  | .busctl0 => Sys2Proof.Machine.execBusctl0 s
  | .busctl1 => Sys2Proof.Machine.execBusctl1 s
  | .busctl2 => Sys2Proof.Machine.execBusctl2 s
  | .busctl3 => Sys2Proof.Machine.execBusctl3 s
  | .busctl4 => Sys2Proof.Machine.execBusctl4 s
  | .busctl5 => Sys2Proof.Machine.execBusctl5 s
  | .busctl6 => Sys2Proof.Machine.execBusctl6 s
  | .busctl7 => Sys2Proof.Machine.execBusctl7 s
  | .sample => Sys2Proof.Machine.execSample s
  | .hostPop => Sys2Proof.Machine.execHostPop s
  | .event tag addr data => Sys2Proof.Machine.execEvent tag addr data s

end Sys2Proof.Machine
end

