-- ==== Sys2Proof/Machine/Fetch.lean ====
section
/-! DEFINITION. Which instruction a step performs. Nothing is fetched from a memory (20_memory.md R43): a clock tick performs the
operation its step vector selects (30_encoding.md R52), the host performs HostPop, and three bytes at the channel's head are an
EVENT (44_host_decoder.md R142). Which agent moves, and the pins of a tick, come from the pending inputs or, when there are
none, from the free environment (DESIGN CHOICE, log 1). -/

namespace Sys2Proof.Machine

/-- The next move of an outside agent. -/
def State.nextInput (s : State) : Input := s.inputs.headD (Config.environment s.moves)

/-- A move that is a clock tick. -/
def Input.isTick : Input → Bool
  | .tick _ => true
  | _ => false

/-- The pins after a move: a tick brings its own pin record. -/
def Input.pinsAfter (m : Input) (before : Lines) : Lines :=
  match m with
  | .tick p => p
  | _ => before

/-- The state with its next move taken: the pins hold that move's levels. -/
def State.accept (s : State) : State :=
  { s with pins := s.nextInput.pinsAfter s.pins, inputs := s.inputs.tail, moves := s.moves + 1 }

/-- The instruction of the host's loop iteration: the three bytes at the channel's head, named by the FRAME row when their tag is a
reserved one (R57) and as an EVENT otherwise; the host does the same with them (R143). With fewer than three bytes it gets no
event and does one blocking read (R141). -/
def State.fetchEvent (s : State) : Instr :=
  match decodeFrameBytes s.ch, decodeEvent s.ch with
  | .ok (.nop addr data, _), _ => .nop addr data
  | .ok (.read addr data, _), _ => .read addr data
  | .ok (.write addr data, _), _ => .write addr data
  | _, .ok (i, _) => i
  | _, .error _ => .hostPop

/-- The instruction a move performs. A bus cycle is named by the frame that reports it: a read's carries the entry as it stands
(R96), a write's the data (R97). -/
def State.fetchFor (s : State) : Input → Except Reject Instr
  | .tick _ => s.stepOp
  | .hostPop => .ok .hostPop
  | .hostEvent => .ok s.fetchEvent
  | .busRead a => decodeFrame tagReadTrace (addrByte a) (s.rf.read a)
  | .busWrite a d => decodeFrame tagWriteTrace (addrByte a) d

/-- The instruction of the step that is due. -/
def State.fetch (s : State) : Except Reject Instr := s.fetchFor s.nextInput

/-! ### Placing an instruction where the next step finds it -/

/-- The state with a channel in which `ready` is the wanted level. Nothing changes where it is so already; else CH_DEPTH is the
length that makes it so, with a zero byte queued first where the channel must be full. -/
def State.withReady (s : State) (want : Bool) : State :=
  if s.ready = want then s
  else if want then { s with chDepth := s.ch.length + 1 }
  else { s with ch := s.ch ++ [0], chDepth := s.ch.length + 1 }

/-- The state with sampled control lines. -/
def State.withControl (s : State) (cs rdN wrN : Bool) : State :=
  { s with smp := { s.smp with cs := cs, rdN := rdN, wrN := wrN } }

/-- The state with a move before the others. -/
def State.withInput (s : State) (m : Input) : State := { s with inputs := m :: s.inputs }

/-- A step vector stored where the Cycle Decoder reads it: `ph`, `ready` and the sampled control lines; the next move is a tick
with the pins as they are. A phase code that is never held (R60) leaves `ph` alone. -/
def State.placeStep (s : State) (v : BitVec 7) : State :=
  let t := (s.withReady (v.getLsbD 3)).withControl (v.getLsbD 2) (v.getLsbD 1) (v.getLsbD 0)
  { t with ph := (Phase.ofCode (v.extractLsb' 4 3)).getD s.ph }.withInput (.tick s.pins)

/-- A BUSCTL value stored in the sampled control lines; the next move is a tick with the pins as they are. -/
def State.placeBusctl (s : State) (v : BitVec 3) : State :=
  (s.withControl (v.getLsbD 2) (v.getLsbD 1) (v.getLsbD 0)).withInput (.tick s.pins)

/-- Three bytes stored at the channel's head; the next move is the host's loop iteration. CH_DEPTH grows where they would not
fit. -/
def State.placeEvent (s : State) (b0 b1 b2 : Byte) : State :=
  let ch := b0 :: b1 :: b2 :: s.ch.drop 3
  { s with ch := ch, chDepth := max s.chDepth ch.length }.withInput .hostEvent

/-- A frame: the bus cycle that emits it, or its three bytes at the channel's head for the host. The frame of a READ cycle reports
the addressed entry (R96), so that entry is made to hold the frame's data byte. -/
def State.placeFrame (s : State) (b0 b1 b2 : Byte) : State :=
  match decodeFrame b0 b1 b2 with
  | .ok (.readTrace addr data) =>
    { s with rf := s.rf.write (addrOfByte addr) data }.withInput (.busRead (addrOfByte addr))
  | .ok (.writeTrace addr data) => s.withInput (.busWrite (addrOfByte addr) data)
  | _ => s.placeEvent b0 b1 b2

/-- A table word (`decodeTableWord`) stored where `step` takes its next instruction from. -/
def State.place (s : State) (nbits w : Nat) : State :=
  if nbits = 3 then s.placeBusctl (BitVec.ofNat 3 w)
  else if nbits = 7 ∨ nbits = 8 then s.placeStep (BitVec.ofNat 7 w)
  else if nbits = 24 then s.placeFrame (frameByte0 w) (frameByte1 w) (frameByte2 w)
  else s

end Sys2Proof.Machine
end

