-- ==== Sys2Proof/Machine/Step.lean ====
section
/-! DEFINITION. One step of the machine: the next move of an outside agent is taken, the instruction it performs is run, and in a
clock tick SAMPLE is run as well, in the same tick (41_cycle_decoder.md R80; it reads and writes nothing the step operation
does, R156 (d)). -/

namespace Sys2Proof.Machine

/-- What `step` adds to an instruction: SAMPLE in a clock tick (R71), nothing otherwise. -/
def State.finish (s : State) (isTick : Bool) : Host.Outcome State Fault Refusal :=
  if isTick then exec .sample s else .next s

/-- One step. -/
def step (s : State) : Host.Outcome State Fault Refusal :=
  match s.fetch with
  | .error e => .refused (.undecodable e)
  | .ok i =>
    match exec i s.accept with
    | .next t => t.finish s.nextInput.isTick
    | .fault r => .fault r
    | .refused r => .refused r

/-- `s` with the instruction of a table word stored where `step` takes its next instruction from (DESIGN CHOICE, log 23). -/
def State.withFetchWord (s : State) (nbits w : Nat) : State := s.place nbits w

end Sys2Proof.Machine
end

