-- ==== Sys2Proof/Safety.lean ====
section
/-! DEFINITION. What claims about runs are stated in: the byte stream of 43_framer.md R126, the machine's invariant
(41_cycle_decoder.md R98, 43_framer.md R126), and the views that compare two states. -/

namespace Sys2Proof.Machine

/-- The three bytes of an event, as they came. -/
def Event.bytes (e : Event) : List Byte := [e.tag, e.addr, e.data]

/-- `T` of R126: every byte pushed since reset, in order: what the host has made events of, what it holds, and the channel. -/
def State.stream (s : State) : List Byte := s.log.flatMap Event.bytes ++ s.hb ++ s.ch

/-- A tag the hardware emits (R54, R57). -/
def emittedTag (b : Byte) : Bool := b == tagReadTrace || b == tagWriteTrace

/-- R126 (a) and (b): whole frames with an emitted tag and an address byte of 0x00 to 0x07, then 0, 1 or 2 bytes of the cycle in
flight, as the phase says; a partial frame's address byte is the latched address (R55). -/
def streamOk (ph : Phase) (latch : Addr) : List Byte → Bool
  | tag :: addr :: _ :: rest => emittedTag tag && addrByteOk addr && streamOk ph latch rest
  | [tag, addr] => emittedTag tag && addr == addrByte latch && (ph == .read || ph == .write)
  | [tag] => emittedTag tag && ph == .prepare
  | [] => ph == .idle || ph == .cleanup

/-- What every state reached from reset satisfies. -/
structure State.Inv (s : State) : Prop where
  /-- the Register File is in canonical form -/
  memory : s.rf.wf = true
  /-- CH_DEPTH is at least 1 (R5) -/
  depth : 1 ≤ s.chDepth
  /-- the channel never exceeds its capacity (R17, R123) -/
  bounded : s.ch.length ≤ s.chDepth
  /-- the host holds 0, 1 or 2 bytes of an event (R20) -/
  partialEvent : s.hb.length ≤ 2
  /-- the byte stream is made of frames, the last one as long as the phase says (R98 (b), R126) -/
  framed : streamOk s.ph s.addrLatch s.stream = true
  /-- the driver is off in PREPARE, READ and WRITE (R98 (c)) -/
  driverOff : s.oe = true → s.ph = .idle ∨ s.ph = .cleanup
  /-- the driven value is the addressed entry for as long as it is driven (R14) -/
  driven : s.oe = true → s.dout = s.rf.read s.addrLatch

/-- Lines on which IDLE starts no cycle (R84): not selected, or both strobes released. -/
def Lines.quiet (l : Lines) : Bool := !l.cs || (l.rdN && l.wrN)

/-- Both strobes released, the level CLEANUP waits for (R95). -/
def Lines.strobesHigh (l : Lines) : Bool := l.rdN && l.wrN

/-- IDLE with nothing on its way: every synchronizer stage holds quiet lines. -/
def State.resting (s : State) : Bool := s.ph == .idle && s.smp.quiet && s.sync.all Lines.quiet

/-- Room for `n` more bytes in the channel. -/
def State.room (s : State) (n : Nat) : Prop := s.ch.length + n ≤ s.chDepth

/-- Bus cycles and host moves that write no byte at the address: read cycles anywhere, write cycles elsewhere, pops and events. -/
def writesOnlyElsewhere (addr : Byte) : Instr → Bool
  | .readTrace b _ => decide (b.toNat < 8)
  | .writeTrace b _ => decide (b.toNat < 8) && !(b == addr)
  | .hostPop | .event _ _ _ => true
  | _ => false

/-- Instructions run one after another, up to the first that answers no next state. -/
def State.execAll (s : State) : List Instr → Host.Outcome State Fault Refusal
  | [] => .next s
  | i :: is =>
    match exec i s with
    | .next t => t.execAll is
    | .fault r => .fault r
    | .refused r => .refused r

/-- Moves taken one after another, a step each, up to the first that answers no next state. -/
def State.takeMoves (s : State) : List Input → Host.Outcome State Fault Refusal
  | [] => .next s
  | m :: ms =>
    match step (s.withInput m) with
    | .next t => t.takeMoves ms
    | .fault r => .fault r
    | .refused r => .refused r

/-- The lines without the interrupt lines' levels. -/
def Lines.noIrq (l : Lines) : Lines := { l with irq := 0 }

/-- The state without the interrupt lines' levels. -/
def State.noIrq (s : State) : State :=
  { s with smp := s.smp.noIrq, sync := s.sync.map Lines.noIrq, pins := s.pins.noIrq }

/-- What steers the Cycle Decoder: everything but the data bytes (Register File, `dout`, the channel's and the host's bytes, the
data lines). -/
structure Control where
  ph : Phase
  addrLatch : Addr
  oe : Bool
  smp : Lines
  sync : List Lines
  queued : Nat
  chDepth : Nat
deriving DecidableEq, Repr

/-- The lines without the data lines' levels. -/
def Lines.noData (l : Lines) : Lines := { l with d := 0 }

/-- A state's control part. -/
def State.control (s : State) : Control where
  ph := s.ph
  addrLatch := s.addrLatch
  oe := s.oe
  smp := s.smp.noData
  sync := s.sync.map Lines.noData
  queued := s.ch.length
  chDepth := s.chDepth

/-- The 18 rows of format STEP. -/
def stepOperations : List Instr := stepRows.map StepRow.instr

end Sys2Proof.Machine
end

