-- ==== Sys2Proof/Certificates/Slice0/Obligations.lean ====
section
/-! DEFINITION. The statements for the provers. "Rests on D<n>" names the spec's own decision in 92_eei_decisions.md; the log entry
that records it is named beside it. A premise `s.nextInput = .tick p` says that the move due is a clock tick on pins `p`; that moves
are data of the state, and `inputs` and `moves` themselves, are the model's choice (log 1). `exec` of a row is the row's effect
alone, whatever selects it (log 18). -/

open Sys2Proof Sys2Proof.Machine

/-! ### Reset and the first tick -/

/-- 10_state.md R24, R25 and 70_reset_and_hazards.md R170: the state before tick 0. The source gives the Register File; every other
value is the spec's decision D9 (log 10). -/
def Obligations.ResetStateOfTheSpec : Prop :=
  (∀ a : Addr, State.reset.rf.read a = 0) ∧ State.reset.ph = .idle ∧ State.reset.addrLatch = 0 ∧
  State.reset.oe = false ∧ State.reset.dout = 0 ∧ State.reset.smp.cs = false ∧ State.reset.smp.rdN = true ∧
  State.reset.smp.wrN = true ∧ State.reset.smp.a = 0 ∧ State.reset.smp.d = 0 ∧ State.reset.smp.irq = 0 ∧
  State.reset.sync = [] ∧ State.reset.ch = [] ∧ State.reset.hb = [] ∧ State.reset.log = [] ∧ 1 ≤ State.reset.chDepth

/-- 70_reset_and_hazards.md R173: tick 0 performs SAMPLE on its pins and IDLE.HOLD, whatever the pins. Rests on D9 (log 10) and on
one synchronizer stage (D4, log 3). -/
def Obligations.FirstTickSamplesAndHolds : Prop :=
  ∀ p : Lines, (State.reset.withInput (.tick p)).stepOp = .ok .idleHoldNsel ∧
    step (State.reset.withInput (.tick p)) = .next { State.reset with smp := p, pins := p, moves := 1 }

/-! ### The Signal Sampler -/

/-- 40_sampler.md R71 with one stage: SAMPLE loads all six sampler registers from the pins, and every tick performs it, whatever the
phase. -/
def Obligations.SampleLoadsEveryLineEveryTick : Prop :=
  ∀ s : State, s.sync = [] →
    exec .sample s = .next { s with smp := s.pins } ∧
    ∀ p : Lines, s.nextInput = .tick p → ∃ t, step s = .next t ∧ t.smp = p ∧ t.sync = []

/-- 40_sampler.md R73: with earlier stages `x_1 .. x_n` the first takes the pins, each later one the stage before it, and the
Cycle Decoder's view the last of them. The number of stages never changes. -/
def Obligations.SampleShiftsTheChain : Prop :=
  ∀ (s : State) (x : Lines) (xs : List Lines), s.sync = x :: xs →
    ∃ t, exec .sample s = .next t ∧ t.sync.length = s.sync.length ∧ t.sync.head? = some s.pins ∧
      (∀ n, n < xs.length → t.sync[n + 1]? = s.sync[n]?) ∧ some t.smp = s.sync.getLast? ∧
      { t with smp := s.smp, sync := s.sync } = s

/-- 40_sampler.md R73: a deeper synchronizer only delays what the Cycle Decoder sees. Ticks on pins `ps` with earlier stages do what
the machine with one stage does on the same pins behind what the stages hold, oldest first. -/
def Obligations.SynchronizerOnlyDelays : Prop :=
  ∀ (s : State) (ps : List Lines),
    { s.ticks ps with sync := [], pins := Lines.released } =
    { State.ticks { s with sync := [] } ((s.sync.reverse ++ ps).take ps.length) with pins := Lines.released }

/-! ### IDLE -/

/-- 41_cycle_decoder.md, IDLE.RD and IDLE.WR: with room in the channel, chip-select at 1 and a strobe at 0, the tag is pushed,
the sampled address latched and the driver turned off. Latching in this tick rests on D5 (log 7), levels on D1 (log 12). -/
def Obligations.IdleStartsACycle : Prop :=
  ∀ s : State, s.ph = .idle → s.ready = true → s.smp.cs = true →
    (s.smp.rdN = false → s.stepOp = .ok .idleRd ∧ s.chWe = true ∧ s.chDin = 0x03 ∧
      exec .idleRd s =
        .next { s with oe := false, ch := s.ch ++ [0x03], addrLatch := s.smp.a, ph := .prepare }) ∧
    (s.smp.rdN = true → s.smp.wrN = false → s.stepOp = .ok .idleWr ∧ s.chWe = true ∧ s.chDin = 0x04 ∧
      exec .idleWr s =
        .next { s with oe := false, ch := s.ch ++ [0x04], addrLatch := s.smp.a, ph := .prepare })

/-- 41_cycle_decoder.md R84: the non-transacting branch turns the driver off and changes nothing else, channel full or not. -/
def Obligations.IdleHoldReleasesTheDriver : Prop :=
  ∀ s : State, s.ph = .idle →
    (s.smp.cs = false → s.stepOp = .ok .idleHoldNsel ∧ s.chWe = false ∧
      exec .idleHoldNsel s = .next { s with oe := false }) ∧
    (s.smp.cs = true → s.smp.rdN = true → s.smp.wrN = true → s.stepOp = .ok .idleHoldRel ∧ s.chWe = false ∧
      exec .idleHoldRel s = .next { s with oe := false })

/-- 41_cycle_decoder.md, IDLE.STALL: a cycle asked for with the channel full only turns the driver off. Rests on D2 and D13
(logs 4, 5). -/
def Obligations.IdleStallsOnAFullChannel : Prop :=
  ∀ s : State, s.ph = .idle → s.ready = false → s.smp.cs = true →
    (s.smp.rdN = false → s.stepOp = .ok .idleStallRd ∧ s.chWe = false ∧
      exec .idleStallRd s = .next { s with oe := false }) ∧
    (s.smp.rdN = true → s.smp.wrN = false → s.stepOp = .ok .idleStallWr ∧ s.chWe = false ∧
      exec .idleStallWr s = .next { s with oe := false })

/-! ### PREPARE -/

/-- 41_cycle_decoder.md R86: with the read-strobe at 0 the address byte is pushed and READ is next; chip-select and write-strobe are
not looked at. -/
def Obligations.PrepareReadPushesTheAddress : Prop :=
  ∀ s : State, s.ph = .prepare → s.ready = true → s.smp.rdN = false →
    s.stepOp = .ok .prepareRd ∧ s.chWe = true ∧ s.chDin = s.addrLatch.setWidth 8 ∧
    exec .prepareRd s = .next { s with ch := s.ch ++ [s.addrLatch.setWidth 8], ph := .read }

/-- 41_cycle_decoder.md R87: with the read-strobe at 1 and the write-strobe at 0 the address byte is pushed and WRITE is next. -/
def Obligations.PrepareWritePushesTheAddress : Prop :=
  ∀ s : State, s.ph = .prepare → s.ready = true → s.smp.rdN = true → s.smp.wrN = false →
    s.stepOp = .ok .prepareWr ∧ s.chWe = true ∧ s.chDin = s.addrLatch.setWidth 8 ∧
    exec .prepareWr s = .next { s with ch := s.ch ++ [s.addrLatch.setWidth 8], ph := .write }

/-- 41_cycle_decoder.md, PREPARE.WAIT and PREPARE.STALL: with no strobe at 0, or with the channel full, nothing changes. Rests on D6
(log 6), D2 and D13 (logs 4, 5). -/
def Obligations.PrepareWaitsAndStalls : Prop :=
  ∀ s : State, s.ph = .prepare →
    (s.smp.rdN = true → s.smp.wrN = true → s.stepOp = .ok .prepareWait ∧ s.chWe = false ∧
      exec .prepareWait s = .next s) ∧
    (s.ready = false → s.smp.rdN = false → s.stepOp = .ok .prepareStallRd ∧ s.chWe = false ∧
      exec .prepareStallRd s = .next s) ∧
    (s.ready = false → s.smp.rdN = true → s.smp.wrN = false → s.stepOp = .ok .prepareStallWr ∧ s.chWe = false ∧
      exec .prepareStallWr s = .next s)

/-! ### READ and WRITE -/

/-- 41_cycle_decoder.md R90: the addressed entry is driven onto the data lines and pushed; the Register File is unchanged and the
control lines are not looked at. -/
def Obligations.ReadDrivesAndPushesTheEntry : Prop :=
  ∀ s : State, s.ph = .read → s.ready = true →
    s.stepOp = .ok .readExec ∧ s.chWe = true ∧ s.chDin = s.rf.read s.addrLatch ∧ s.rfRdEn = true ∧ s.rfWrEn = false ∧
    exec .readExec s = .next { s with dout := s.rf.read s.addrLatch, oe := true,
                                      ch := s.ch ++ [s.rf.read s.addrLatch], ph := .cleanup }

/-- 41_cycle_decoder.md R92: the sampled data lines are written to the addressed entry and pushed. The entry written reads as the
captured value afterwards and every other entry as before. -/
def Obligations.WriteStoresAndPushesTheData : Prop :=
  ∀ s : State, s.ph = .write → s.ready = true →
    s.stepOp = .ok .writeExec ∧ s.chWe = true ∧ s.chDin = s.smp.d ∧ s.rfWrEn = true ∧ s.rfRdEn = false ∧
    ∃ t, exec .writeExec s = .next t ∧ { t with rf := s.rf, ch := s.ch, ph := s.ph } = s ∧
      (∀ b : Addr, t.rf.read b = if b = s.addrLatch then s.smp.d else s.rf.read b) ∧
      t.ch = s.ch ++ [s.smp.d] ∧ t.ph = .cleanup

/-- 41_cycle_decoder.md, READ.STALL and WRITE.STALL: with the channel full nothing is driven, written or pushed. Rests on D2 and D13
(logs 4, 5). -/
def Obligations.ReadAndWriteStall : Prop :=
  ∀ s : State, s.ready = false →
    (s.ph = .read → s.stepOp = .ok .readStall ∧ s.chWe = false ∧ s.rfRdEn = false ∧
      exec .readStall s = .next s) ∧
    (s.ph = .write → s.stepOp = .ok .writeStall ∧ s.chWe = false ∧ s.rfWrEn = false ∧
      exec .writeStall s = .next s)

/-! ### CLEANUP -/

/-- 41_cycle_decoder.md R94: while either strobe is at 0 CLEANUP holds everything, the driver included. -/
def Obligations.CleanupWaitsForRelease : Prop :=
  ∀ s : State, s.ph = .cleanup →
    (s.smp.rdN = false → s.stepOp = .ok .cleanupWaitRd ∧ s.chWe = false ∧ exec .cleanupWaitRd s = .next s) ∧
    (s.smp.rdN = true → s.smp.wrN = false → s.stepOp = .ok .cleanupWaitWr ∧ s.chWe = false ∧
      exec .cleanupWaitWr s = .next s)

/-- 41_cycle_decoder.md R95: in CLEANUP with both strobes at 1 CLEANUP.DONE returns to IDLE and changes nothing else, `oe` included;
and only then: a tick that begins in CLEANUP ends in IDLE exactly when both sampled strobes are at 1, and in CLEANUP otherwise. -/
def Obligations.CleanupReturnsToIdle : Prop :=
  ∀ s : State, s.ph = .cleanup →
    (s.smp.rdN = true → s.smp.wrN = true →
      s.stepOp = .ok .cleanupDone ∧ s.chWe = false ∧ exec .cleanupDone s = .next { s with ph := .idle }) ∧
    (∀ p, s.nextInput = .tick p → ∃ t, step s = .next t ∧ (t.ph = .idle ↔ s.smp.rdN = true ∧ s.smp.wrN = true) ∧
      (t.ph ≠ .idle → t.ph = .cleanup))

/-! ### The whole tick -/

/-- 41_cycle_decoder.md R80, 44_host_decoder.md R141: when the next move performs instruction `i` and `i` answers `t`, the step
answers `t`, with SAMPLE added in a clock tick (R71); in a tick the instruction is the one the step vector selects (R52). The move
is used up and its pins are the tick's. The moves themselves (`nextInput`, `inputs`, `moves`, and the moves that are no tick) are
the model's choice (log 1). -/
def Obligations.StepRunsTheFetchedInstruction : Prop :=
  ∀ (s t : State) (i : Instr), s.fetch = .ok i →
    exec i { s with pins := s.nextInput.pinsAfter s.pins, inputs := s.inputs.tail, moves := s.moves + 1 } = .next t →
    ((∃ p, s.nextInput = .tick p) → decodeStep s.stepVector = .ok i ∧ step s = exec .sample t) ∧
    ((∀ p, s.nextInput ≠ .tick p) → step s = .next t)

/-- 41_cycle_decoder.md, `Tick(Σ, P)`: running the row the selection table picks, then SAMPLE, is the case distinction of the
pseudocode. Its stalls rest on D2 and D13 (logs 4, 5). -/
def Obligations.TableAndPseudocodeAgree : Prop :=
  ∀ (s : State) (p : Lines), s.nextInput = .tick p →
    step s = .next (State.tick { s with inputs := s.inputs.tail, moves := s.moves + 1 } p)

/-- 41_cycle_decoder.md, the head of rule `Tick`, and 60_exceptions.md section 1 (log 32): from every state every move answers a next
state; nothing faults and nothing is refused. That a HostPop move on an empty channel answers a state too, where the spec gives the
host no step, is the model's choice (log 13), and so are the moves (log 1). -/
def Obligations.EveryStepAnswers : Prop := ∀ s : State, ∃ t, step s = .next t

/-- 30_encoding.md R52: every step vector of a state matches exactly one row of the table, and that row's operation is performed. -/
def Obligations.ExactlyOneRowMatches : Prop :=
  ∀ s : State, ∃ r ∈ stepRows, s.stepVector &&& r.mask = r.pattern ∧ s.stepOp = .ok r.instr ∧
    ∀ q ∈ stepRows, s.stepVector &&& q.mask = q.pattern → q = r

/-- 41_cycle_decoder.md, the transition table: what each selected operation makes of the phase and of the channel, in a whole tick.
Its stall rows rest on D2 and D13 (logs 4, 5), PREPARE.WAIT on D6 (log 6). -/
def Obligations.PhaseTransitionTable : Prop :=
  ∀ (s : State) (p : Lines), s.nextInput = .tick p → ∃ t, step s = .next t ∧
    (s.stepOp = .ok .idleRd → s.ph = .idle ∧ t.ph = .prepare ∧ t.ch = s.ch ++ [0x03]) ∧
    (s.stepOp = .ok .idleWr → s.ph = .idle ∧ t.ph = .prepare ∧ t.ch = s.ch ++ [0x04]) ∧
    (s.stepOp = .ok .idleHoldNsel ∨ s.stepOp = .ok .idleHoldRel → s.ph = .idle ∧ t.ph = .idle ∧ t.ch = s.ch) ∧
    (s.stepOp = .ok .idleStallRd ∨ s.stepOp = .ok .idleStallWr → s.ph = .idle ∧ t.ph = .idle ∧ t.ch = s.ch) ∧
    (s.stepOp = .ok .prepareRd → s.ph = .prepare ∧ t.ph = .read ∧ t.ch = s.ch ++ [s.addrLatch.setWidth 8]) ∧
    (s.stepOp = .ok .prepareWr → s.ph = .prepare ∧ t.ph = .write ∧ t.ch = s.ch ++ [s.addrLatch.setWidth 8]) ∧
    (s.stepOp = .ok .prepareWait → s.ph = .prepare ∧ t.ph = .prepare ∧ t.ch = s.ch) ∧
    (s.stepOp = .ok .prepareStallRd ∨ s.stepOp = .ok .prepareStallWr →
      s.ph = .prepare ∧ t.ph = .prepare ∧ t.ch = s.ch) ∧
    (s.stepOp = .ok .readExec → s.ph = .read ∧ t.ph = .cleanup ∧ t.ch = s.ch ++ [s.rf.read s.addrLatch]) ∧
    (s.stepOp = .ok .readStall → s.ph = .read ∧ t.ph = .read ∧ t.ch = s.ch) ∧
    (s.stepOp = .ok .writeExec → s.ph = .write ∧ t.ph = .cleanup ∧ t.ch = s.ch ++ [s.smp.d]) ∧
    (s.stepOp = .ok .writeStall → s.ph = .write ∧ t.ph = .write ∧ t.ch = s.ch) ∧
    (s.stepOp = .ok .cleanupWaitRd ∨ s.stepOp = .ok .cleanupWaitWr →
      s.ph = .cleanup ∧ t.ph = .cleanup ∧ t.ch = s.ch) ∧
    (s.stepOp = .ok .cleanupDone → s.ph = .cleanup ∧ t.ph = .idle ∧ t.ch = s.ch)

/-- 41_cycle_decoder.md, side effects are confined: which operation may change which part of the state in a tick. That `oe` and `dout`
keep their values between rests on D8 (log 9). -/
def Obligations.TickConfinesItsEffects : Prop :=
  ∀ (s : State) (p : Lines), s.nextInput = .tick p → ∃ t, step s = .next t ∧
    t.hb = s.hb ∧ t.log = s.log ∧ t.chDepth = s.chDepth ∧ t.sync.length = s.sync.length ∧
    t.pins = p ∧ t.inputs = s.inputs.tail ∧ t.moves = s.moves + 1 ∧
    (s.stepOp ≠ .ok .writeExec → ∀ b : Addr, t.rf.read b = s.rf.read b) ∧
    (s.stepOp ≠ .ok .idleRd → s.stepOp ≠ .ok .idleWr → s.stepOp ≠ .ok .prepareRd → s.stepOp ≠ .ok .prepareWr →
      s.stepOp ≠ .ok .readExec → s.stepOp ≠ .ok .writeExec → t.ch = s.ch) ∧
    (s.stepOp ≠ .ok .idleRd → s.stepOp ≠ .ok .idleWr → t.addrLatch = s.addrLatch) ∧
    (s.stepOp ≠ .ok .readExec → t.dout = s.dout) ∧
    (s.stepOp ≠ .ok .readExec → s.ph ≠ .idle → t.oe = s.oe) ∧
    (s.ph = .idle → t.oe = false)

/-- 43_framer.md, when the write-enable is high: it is 1 exactly in the ticks of the six operations that queue a byte, and then that
byte is appended, otherwise none. That the byte is there after the operation's own tick rests on D7 (log 8). -/
def Obligations.WriteEnableExactlyWhenQueued : Prop :=
  ∀ (s : State) (p : Lines), s.nextInput = .tick p →
    (s.chWe = true ↔ s.stepOp = .ok .idleRd ∨ s.stepOp = .ok .idleWr ∨ s.stepOp = .ok .prepareRd ∨
      s.stepOp = .ok .prepareWr ∨ s.stepOp = .ok .readExec ∨ s.stepOp = .ok .writeExec) ∧
    ∃ t, step s = .next t ∧ t.ch = if s.chWe then s.ch ++ [s.chDin] else s.ch

/-- 42_regfile_ports.md R112: in every tick the write port is indexed by the latched address and carries the sampled data;
`rf_wr_en` is 1 exactly in a WRITE.EXEC tick, the cycle's one such tick, and then the entry reads as that data from the next tick
on; no other entry and no other tick changes what is read. -/
def Obligations.WritePortContract : Prop :=
  ∀ (s : State) (p : Lines), s.nextInput = .tick p →
    s.rfAddr = s.addrLatch ∧ s.rfWrData = s.smp.d ∧ (s.rfWrEn = true ↔ s.stepOp = .ok .writeExec) ∧
    ∃ t, step s = .next t ∧ (s.rfWrEn = true → s.ph = .write ∧ t.ph = .cleanup) ∧
      ∀ b : Addr, t.rf.read b = if s.rfWrEn = true ∧ b = s.addrLatch then s.smp.d else s.rf.read b

/-- 42_regfile_ports.md, the port arbiter: READ.EXEC activates the read port alone, WRITE.EXEC the write port alone, every other
operation neither; a tick never does both. That neither port is active in a stall rests on D13 (log 5). -/
def Obligations.PortArbiter : Prop :=
  ∀ s : State, (s.rfRdEn = true ↔ s.stepOp = .ok .readExec) ∧ (s.rfWrEn = true ↔ s.stepOp = .ok .writeExec) ∧
    ¬(s.rfRdEn = true ∧ s.rfWrEn = true) ∧
    (s.rfRdEn = true → s.ph = .read ∧ s.ready = true) ∧ (s.rfWrEn = true → s.ph = .write ∧ s.ready = true)

/-- 41_cycle_decoder.md, the tie-break: with both strobes at 0 a selected IDLE tick performs IDLE.RD and a PREPARE tick PREPARE.RD,
never the write's operations. That they hold instead while the channel is full, in the stall row of the read, rests on D2 and D13
(logs 4, 5). -/
def Obligations.ReadWinsTheTie : Prop :=
  ∀ s : State, s.smp.rdN = false → s.smp.wrN = false →
    (s.ph = .idle → s.smp.cs = true → s.stepOp = .ok (if s.ready then .idleRd else .idleStallRd)) ∧
    (s.ph = .prepare → s.stepOp = .ok (if s.ready then .prepareRd else .prepareStallRd))

/-- 41_cycle_decoder.md, chip-select is tested in IDLE only: outside IDLE its level does not change which operation a tick performs,
and in IDLE without it no cycle starts. -/
def Obligations.ChipSelectCountsInIdleOnly : Prop :=
  ∀ (s : State) (level : Bool),
    (s.ph ≠ .idle → State.stepOp { s with smp := { s.smp with cs := level } } = s.stepOp) ∧
    (s.ph = .idle → s.smp.cs = false → s.stepOp = .ok .idleHoldNsel)

/-! ### BUSCTL -/

/-- 30_encoding.md, BUSCTL and STEP: in every state a BUSCTL value does what the operation does that the step vector with that value
selects. That a BUSCTL row is run so is the model's choice (log 19). -/
def Obligations.BusctlRunsTheSelectedOperation : Prop :=
  ∀ (s : State) (cs rdN wrN : Bool), ∃ i t, decodeStep (stepBits s.ph s.ready cs rdN wrN) = .ok i ∧
    exec (busctlOf cs rdN wrN) s = exec i s ∧ exec (busctlOf cs rdN wrN) s = .next t

/-- 30_encoding.md R51, the table: what each value of the sampled control lines means to each phase, the channel having room. READ and
WRITE look at none of the three bits. That a BUSCTL row is run so is the model's choice (log 19); latching in IDLE rests on D5
(log 7). -/
def Obligations.BusctlTable : Prop :=
  ∀ (s : State) (v : BitVec 3), s.ready = true → ∃ t, exec (decodeBusctl v) s = .next t ∧
    (s.ph = .idle → v = 0 ∨ v = 1 ∨ v = 2 ∨ v = 3 ∨ v = 7 → t = { s with oe := false }) ∧
    (s.ph = .idle → v = 4 ∨ v = 5 →
      t = { s with oe := false, ch := s.ch ++ [0x03], addrLatch := s.smp.a, ph := .prepare }) ∧
    (s.ph = .idle → v = 6 →
      t = { s with oe := false, ch := s.ch ++ [0x04], addrLatch := s.smp.a, ph := .prepare }) ∧
    (s.ph = .prepare → v = 0 ∨ v = 1 ∨ v = 4 ∨ v = 5 →
      t = { s with ch := s.ch ++ [s.addrLatch.setWidth 8], ph := .read }) ∧
    (s.ph = .prepare → v = 2 ∨ v = 6 →
      t = { s with ch := s.ch ++ [s.addrLatch.setWidth 8], ph := .write }) ∧
    (s.ph = .prepare → v = 3 ∨ v = 7 → t = s) ∧
    (s.ph = .read → exec .readExec s = .next t) ∧
    (s.ph = .write → exec .writeExec s = .next t) ∧
    (s.ph = .cleanup → v = 3 ∨ v = 7 → t = { s with ph := .idle }) ∧
    (s.ph = .cleanup → v ≠ 3 → v ≠ 7 → t = s)

/-! ### Whole bus cycles -/

/-- 41_cycle_decoder.md section 7, the READ bus cycle: from IDLE with quiet lines and room for a frame, READ_TRACE appends
(0x03, address, entry), drives the entry and leaves the Register File as it was, whatever the number of synchronizer stages. The
pins are those of `RD a` (log 20). -/
def Obligations.ReadCycleTotalEffect : Prop :=
  ∀ (s : State) (addr data : Byte), addr.toNat < 8 → s.resting = true → s.room 3 →
    ∃ t, exec (.readTrace addr data) s = .next t ∧
      t.ch = s.ch ++ [0x03, addr, s.rf.read (addrOfByte addr)] ∧ t.dout = s.rf.read (addrOfByte addr) ∧
      t.oe = true ∧ t.ph = .idle ∧ t.addrLatch = addrOfByte addr ∧ t.rf = s.rf ∧
      t.hb = s.hb ∧ t.log = s.log ∧ t.chDepth = s.chDepth ∧ t.inputs = s.inputs ∧ t.moves = s.moves ∧
      t.sync.length = s.sync.length

/-- 41_cycle_decoder.md section 7, the WRITE bus cycle: from IDLE with quiet lines and room for a frame, WRITE_TRACE appends
(0x04, address, data), the entry reads as the data afterwards and every other entry as before, and the lines are not driven.
The pins are those of `WR a, d` (log 20). -/
def Obligations.WriteCycleTotalEffect : Prop :=
  ∀ (s : State) (addr data : Byte), addr.toNat < 8 → s.resting = true → s.room 3 →
    ∃ t, exec (.writeTrace addr data) s = .next t ∧
      t.ch = s.ch ++ [0x04, addr, data] ∧
      (∀ b : Addr, t.rf.read b = if b = addrOfByte addr then data else s.rf.read b) ∧
      t.oe = false ∧ t.dout = s.dout ∧ t.ph = .idle ∧ t.addrLatch = addrOfByte addr ∧
      t.hb = s.hb ∧ t.log = s.log ∧ t.chDepth = s.chDepth ∧ t.inputs = s.inputs ∧ t.moves = s.moves ∧
      t.sync.length = s.sync.length

/-- 42_regfile_ports.md, the round-trip law: a write cycle to an address, then any number of other moves that write no byte there (read
cycles anywhere, write cycles to other addresses, host pops and events), then a read cycle from it: the read yields the written
byte, in its frame and on the data lines. The cycles are on the pins of `RD` and `WR` (log 20); ReadYieldsTheLastWrite says it over
single ticks. -/
def Obligations.RoundTripLaw : Prop :=
  ∀ (s : State) (addr v x : Byte) (between : List Instr), addr.toNat < 8 → s.resting = true →
    s.room (3 * (between.length + 2)) → (∀ i ∈ between, writesOnlyElsewhere addr i = true) →
    ∃ t w u, exec (.writeTrace addr v) s = .next t ∧ t.execAll between = .next w ∧
      exec (.readTrace addr x) w = .next u ∧ t.ch = s.ch ++ [0x04, addr, v] ∧
      u.ch = w.ch ++ [0x03, addr, v] ∧ u.dout = v ∧ u.oe = true

/-- 42_regfile_ports.md, the round-trip law over single ticks and pops, for every bus master: after a WRITE.EXEC tick the entry holds
the captured byte for as long as no tick performs WRITE.EXEC at that address, whatever the pins, the waits, the stalls and the host do
meanwhile, and a READ.EXEC tick with the address latched drives and queues that byte. -/
def Obligations.ReadYieldsTheLastWrite : Prop :=
  ∀ (s : State) (p : Lines) (ms : List Input), s.ph = .write → s.ready = true →
    (∀ m ∈ ms, m = .hostPop ∨ ∃ q, m = .tick q) →
    (∀ k q w, ms[k]? = some (.tick q) → s.takeMoves (.tick p :: ms.take k) = .next w →
      ¬(w.rfWrEn = true ∧ w.addrLatch = s.addrLatch)) →
    ∃ t, s.takeMoves (.tick p :: ms) = .next t ∧ t.rf.read s.addrLatch = s.smp.d ∧
      (t.ph = .read → t.ready = true → t.addrLatch = s.addrLatch → ∀ q : Lines,
        ∃ u, t.takeMoves [.tick q] = .next u ∧ u.dout = s.smp.d ∧ u.oe = true ∧ u.ch = t.ch ++ [s.smp.d])

/-- 41_cycle_decoder.md section 7, the READ bus cycle for every bus master that keeps the read-strobe low through PREPARE: three ticks
to the frame and the driven data, then CLEANUP for as long as a strobe is low (`waits`, any number), then IDLE. One synchronizer
stage. Latching in IDLE rests on D5 (log 7), the driver held through CLEANUP on D8 (log 9). -/
def Obligations.ReadCycleWithAnyWaits : Prop :=
  ∀ (s : State) (p1 p2 : Lines) (waits : List Lines) (release last : Lines), s.sync = [] → s.ph = .idle →
    s.smp.cs = true → s.smp.rdN = false → s.room 3 → p1.rdN = false → (∀ w ∈ waits, w.strobesHigh = false) →
    release.strobesHigh = true →
    ∃ t, t = s.ticks (p1 :: p2 :: (waits ++ [release, last])) ∧
      t = { s with ph := .idle, addrLatch := s.smp.a, oe := true, dout := s.rf.read s.smp.a,
                   ch := s.ch ++ [0x03, s.smp.a.setWidth 8, s.rf.read s.smp.a], smp := last, pins := last }

/-- 41_cycle_decoder.md section 7, the WRITE bus cycle likewise; the data is what the lines held at the tick before WRITE.EXEC
(70_reset_and_hazards.md section 3, tick t0 + 2), whatever the strobes did there. Latching in IDLE rests on D5 (log 7). -/
def Obligations.WriteCycleWithAnyWaits : Prop :=
  ∀ (s : State) (p1 p2 : Lines) (waits : List Lines) (release last : Lines), s.sync = [] → s.ph = .idle →
    s.smp.cs = true → s.smp.rdN = true → s.smp.wrN = false → s.room 3 → p1.rdN = true → p1.wrN = false →
    (∀ w ∈ waits, w.strobesHigh = false) → release.strobesHigh = true →
    ∃ t, t = s.ticks (p1 :: p2 :: (waits ++ [release, last])) ∧
      t = { s with ph := .idle, addrLatch := s.smp.a, oe := false, rf := s.rf.write s.smp.a p2.d,
                   ch := s.ch ++ [0x04, s.smp.a.setWidth 8, p2.d], smp := last, pins := last }

/-- 41_cycle_decoder.md section 7, the table of frames whose tag and data phase differ: IDLE decides the tag, PREPARE the data
phase, each on its own sample. In the rows whose data phase is READ the lines are driven with the entry, in the others they are not
driven and the driven value's register is as before. -/
def Obligations.MixedFrames : Prop :=
  ∀ (s : State) (p1 p2 p3 : Lines), s.sync = [] → s.ph = .idle → s.smp.cs = true → s.smp.strobesHigh = false →
    p1.strobesHigh = false → s.room 3 →
    ∃ t, t = s.ticks [p1, p2, p3] ∧ t.ph = .cleanup ∧
      t.ch = s.ch ++ [if s.smp.rdN then 0x04 else 0x03, s.smp.a.setWidth 8,
                      if p1.rdN then p2.d else s.rf.read s.smp.a] ∧
      (∀ b : Addr, t.rf.read b = if p1.rdN = true ∧ b = s.smp.a then p2.d else s.rf.read b) ∧
      t.oe = !p1.rdN ∧ t.dout = (if p1.rdN then s.dout else s.rf.read s.smp.a) ∧
      t.dataLinesDriven = (if p1.rdN then none else some (s.rf.read s.smp.a))

/-- 70_reset_and_hazards.md section 3: a bus cycle asked for while IDLE is stalled and over before the channel has room leaves no
frame, no write and no driven data. Rests on D2 and D13 (logs 4, 5) and on the pins of `RD` and `WR` (log 20). -/
def Obligations.StalledCycleIsLost : Prop :=
  ∀ (s : State) (addr data : Byte), s.resting = true → s.ready = false →
    (∃ t, exec (.readTrace addr data) s = .next t ∧ t.ch = s.ch ∧ t.rf = s.rf ∧ t.oe = false ∧ t.ph = .idle ∧
      t.addrLatch = s.addrLatch) ∧
    (∃ t, exec (.writeTrace addr data) s = .next t ∧ t.ch = s.ch ∧ t.rf = s.rf ∧ t.oe = false ∧ t.ph = .idle ∧
      t.addrLatch = s.addrLatch)

/-- 70_reset_and_hazards.md section 3 and 41_cycle_decoder.md section 6: as long as no sample shows both strobes released the machine
stays in CLEANUP, queues nothing, writes nothing and keeps driving what it drove. -/
def Obligations.UnreleasedStrobeHangs : Prop :=
  ∀ (s : State) (ps : List Lines), s.ph = .cleanup → s.smp.strobesHigh = false →
    (∀ x ∈ s.sync, x.strobesHigh = false) → (∀ p ∈ ps, p.strobesHigh = false) →
    ∃ t, t = s.ticks ps ∧ { t with smp := s.smp, sync := s.sync, pins := s.pins } = s

/-- 43_framer.md, a stall ends only by a HostPop: with the channel full no number of ticks makes room, queues a byte or writes an
entry; a machine in PREPARE, READ or WRITE stays there with its driver as it was, and one in IDLE stays in IDLE. Rests on D2 and D13
(logs 4, 5). -/
def Obligations.StallEndsOnlyByAPop : Prop :=
  ∀ (s : State) (ps : List Lines), s.ready = false →
    ∃ t, t = s.ticks ps ∧ t.ch = s.ch ∧ t.ready = false ∧ t.rf = s.rf ∧ t.dout = s.dout ∧ t.addrLatch = s.addrLatch ∧
      (s.ph = .idle → t.ph = .idle) ∧ (s.ph = .prepare → t.ph = .prepare ∧ t.oe = s.oe) ∧
      (s.ph = .read → t.ph = .read ∧ t.oe = s.oe) ∧ (s.ph = .write → t.ph = .write ∧ t.oe = s.oe)

/-! ### The host -/

/-- 44_host_decoder.md R141: HostPop takes one byte from the head; the first two are kept, the third completes an event. With the
channel empty there is no step: nothing changes (log 13). -/
def Obligations.HostPopTakesOneByte : Prop :=
  ∀ s : State,
    (s.ch = [] → exec .hostPop s = .next s) ∧
    (∀ b rest, s.ch = b :: rest → s.hb.length < 2 →
      exec .hostPop s = .next { s with ch := rest, hb := s.hb ++ [b] }) ∧
    (∀ b rest tag addr, s.ch = b :: rest → s.hb = [tag, addr] →
      exec .hostPop s = .next { s with ch := rest, hb := [], log := s.log ++ [⟨tag, addr, b⟩] })

/-- 44_host_decoder.md R142: the host's three bytes become one event in the order they were popped; a host that is one or two bytes out
of step regroups them with what it holds and never notices. That EVENT passes its operands through the host's buffer, tied to the
channel's head only where a step fetches it, is the model's choice (log 21); EventIsThreePops ties them. -/
def Obligations.EventRegroupsThreeBytes : Prop :=
  ∀ (s : State) (b0 b1 b2 : Byte),
    (s.hb = [] → exec (.event b0 b1 b2) s =
      .next { s with ch := s.ch.drop 3, log := s.log ++ [⟨b0, b1, b2⟩] }) ∧
    (∀ x, s.hb = [x] → exec (.event b0 b1 b2) s =
      .next { s with ch := s.ch.drop 3, log := s.log ++ [⟨x, b0, b1⟩], hb := [b2] }) ∧
    (∀ x y, s.hb = [x, y] → exec (.event b0 b1 b2) s =
      .next { s with ch := s.ch.drop 3, log := s.log ++ [⟨x, y, b0⟩], hb := [b1, b2] })

/-- 30_encoding.md R57, R58 and 44_host_decoder.md R143: a frame with a reserved tag is reported as is, like any event. That the
rows NOP, READ and WRITE stand for the host's regrouping is the model's choice (log 21). -/
def Obligations.ReservedTagsAreReportedAsIs : Prop :=
  ∀ (s : State) (addr data : Byte), s.hb = [] →
    exec (.nop addr data) s = .next { s with ch := s.ch.drop 3, log := s.log ++ [⟨0x00, addr, data⟩] } ∧
    exec (.read addr data) s = .next { s with ch := s.ch.drop 3, log := s.log ++ [⟨0x01, addr, data⟩] } ∧
    exec (.write addr data) s = .next { s with ch := s.ch.drop 3, log := s.log ++ [⟨0x02, addr, data⟩] }

/-- 44_host_decoder.md: an event read in one go is three HostPop steps, whatever the host holds already and whatever the tag. The
instruction a loop iteration fetches is the model's choice (log 21). -/
def Obligations.EventIsThreePops : Prop :=
  ∀ (s : State) (b0 b1 b2 : Byte) (rest : List Byte), s.ch = b0 :: b1 :: b2 :: rest →
    ∃ t u v, exec .hostPop s = .next t ∧ exec .hostPop t = .next u ∧ exec .hostPop u = .next v ∧
      exec s.fetchEvent s = .next v ∧ exec (.event b0 b1 b2) s = .next v ∧ v.ch = rest

/-- 44_host_decoder.md, what the host may and may not do, and 42_regfile_ports.md, no other path to the storage: the host's
instructions change the channel's head, the host's buffer and its log, and nothing of the hardware; every entry reads as
before. That NOP, READ and WRITE are instructions of the host, run on operands not tied to the channel, is the model's choice (log 21),
and so is a HostPop that answers on an empty channel (log 13). -/
def Obligations.HostLeavesTheHardwareAlone : Prop :=
  ∀ (s : State) (i : Instr) (b0 b1 b2 : Byte),
    i = .hostPop ∨ i = .event b0 b1 b2 ∨ i = .nop b1 b2 ∨ i = .read b1 b2 ∨ i = .write b1 b2 →
    ∃ t, exec i s = .next t ∧ { t with ch := s.ch, hb := s.hb, log := s.log } = s ∧
      (∀ b : Addr, t.rf.read b = s.rf.read b) ∧ t.ch = s.ch.drop (if i = .hostPop then 1 else 3)

/-! ### Frames of the step operations -/

/-- The frame of the operations that store nothing in the Register File: every entry reads as before, the host's state, the
synchronizer, the parameter and the inputs are unchanged, at most one byte is appended to the channel, and each of the Cycle
Decoder's registers changes in the operations named for it alone. In states whose step vector does not select the operation, where
the spec gives it no effect, this is about the model's choice (log 18). -/
def Obligations.StepOperationsFrame : Prop :=
  ∀ (s : State) (i : Instr), i ∈ stepOperations → i ≠ .writeExec →
    ∃ t, exec i s = .next t ∧ (∀ b : Addr, t.rf.read b = s.rf.read b) ∧ t.hb = s.hb ∧ t.log = s.log ∧
      t.smp = s.smp ∧ t.sync = s.sync ∧ t.chDepth = s.chDepth ∧ t.pins = s.pins ∧ t.inputs = s.inputs ∧
      t.moves = s.moves ∧ (t.ch = s.ch ∨ ∃ b, s.pushedBy i = some b ∧ t.ch = s.ch ++ [b]) ∧
      (i ≠ .idleRd → i ≠ .idleWr → t.addrLatch = s.addrLatch) ∧ (i ≠ .readExec → t.dout = s.dout) ∧
      (t.oe = s.oe ∨ t.oe = true ∧ i = .readExec ∨
        t.oe = false ∧ (i = .idleRd ∨ i = .idleWr ∨ i = .idleHoldNsel ∨ i = .idleHoldRel ∨ i = .idleStallRd ∨
          i = .idleStallWr)) ∧
      (s.pushedBy i = none → i ≠ .cleanupDone → t.ph = s.ph)

/-- The frame of WRITE.EXEC, the one operation that stores: with the address stored to being the latched one, every other entry reads
as before; all of the state but the Register File, the channel and the phase is unchanged; with the channel full so are they. In
phases other than WRITE and with the channel full, where the spec's row does not select WRITE.EXEC, this is about the model's
choice (log 18). -/
def Obligations.WriteExecFrame : Prop :=
  ∀ s : State, ∃ t, exec .writeExec s = .next t ∧ { t with rf := s.rf, ch := s.ch, ph := s.ph } = s ∧
    (∀ a : Addr, s.rfAddr = a → ∀ b : Addr, b ≠ a → t.rf.read b = s.rf.read b) ∧
    (s.ready = false → t = s)

/-- The frame of BUSCTL and of SAMPLE: only a BUSCTL value in phase WRITE stores, and only at the latched address; the host's state,
the parameter and the inputs are unchanged. That a BUSCTL row is run as the Cycle Decoder's reaction is the model's choice (log 19). -/
def Obligations.BusctlAndSampleFrame : Prop :=
  ∀ (s : State) (v : BitVec 3) (i : Instr), i = decodeBusctl v ∨ i = .sample →
    ∃ t, exec i s = .next t ∧ t.hb = s.hb ∧ t.log = s.log ∧ t.chDepth = s.chDepth ∧ t.pins = s.pins ∧
      t.inputs = s.inputs ∧ t.moves = s.moves ∧
      (∀ b : Addr, s.ph ≠ .write ∨ i = .sample ∨ b ≠ s.addrLatch → t.rf.read b = s.rf.read b) ∧
      (s.ph ≠ .idle ∨ i = .sample → t.addrLatch = s.addrLatch) ∧ (s.ph ≠ .read ∨ i = .sample → t.dout = s.dout) ∧
      (s.ph ≠ .idle ∧ s.ph ≠ .read ∨ i = .sample → t.oe = s.oe) ∧
      (t.ch = s.ch ∨ i ≠ .sample ∧ ∃ b, t.ch = s.ch ++ [b]) ∧
      (i = .sample → { t with smp := s.smp, sync := s.sync } = s) ∧
      (i ≠ .sample → t.smp = s.smp ∧ t.sync = s.sync)

/-! ### Encodings -/

/-- Decoding the word of a well-formed instruction gives the instruction back, every operand at every value; every instruction
but SAMPLE and HostPop has a word. -/
def Obligations.DecodeOfEncode : Prop :=
  ∀ i : Instr, i.wf = true →
    (∀ f w, encode i = some (f, w) → decode f w = .ok i) ∧ (i ≠ .sample → i ≠ .hostPop → (encode i).isSome = true)

/-- 30_encoding.md, the other direction. Where a word has one meaning, a BUSCTL, FRAME or EVENT word that decodes is the word of the
well-formed instruction it decodes to. A STEP word, whose rows have don't-care bits, decodes exactly when its phase code is at most 4,
to the one row whose mask and match it meets; phase codes 5, 6 and 7 are refused (R52, R60), and so is a number of more than 7
bits. -/
def Obligations.EncodeOfDecode : Prop :=
  (∀ (f : Format) (w : Nat) (i : Instr), f ≠ .step → decode f w = .ok i → i.wf = true ∧ encode i = some (f, w)) ∧
  ∀ w : Nat,
    (w / 16 ≤ 4 → ∃ r ∈ stepRows, decode .step w = .ok r.instr ∧ BitVec.ofNat 7 w &&& r.mask = r.pattern ∧
      ∀ q ∈ stepRows, BitVec.ofNat 7 w &&& q.mask = q.pattern → q = r) ∧
    (5 ≤ w / 16 → w / 16 ≤ 7 → decode .step w = .error .reservedPhase) ∧
    (8 ≤ w / 16 → decode .step w = .error .tooWide)

/-- Words written out from the tables of 30_encoding.md and the scenario frames of 95_test_vectors.md decode as written. That a word's
length tells the formats apart is the model's choice (log 22). -/
def Obligations.WordsOfTheSpecDecode : Prop :=
  decodeTableWord 7 0b0001101 = some .idleRd ∧ decodeTableWord 7 0b0011010 = some .prepareWr ∧
  decodeTableWord 7 0b0101101 = some .readExec ∧ decodeTableWord 7 0b0111110 = some .writeExec ∧
  decodeTableWord 7 0b1001111 = some .cleanupDone ∧ decodeTableWord 7 0b1010000 = none ∧
  decodeTableWord 3 0b110 = some .busctl6 ∧ decodeTableWord 24 0x030100 = some (.readTrace 0x01 0x00) ∧
  decodeTableWord 24 0x0401AA = some (.writeTrace 0x01 0xAA) ∧ decodeTableWord 24 0x000102 = some (.nop 0x01 0x02) ∧
  decodeTableWord 24 0x7F0009 = some (.event 0x7F 0x00 0x09)

/-! ### Invariants and runs -/

/-- The invariant holds before tick 0. It rests on the reset values IDLE, `oe` 0 and empty `ch`, `hb` and `log`, which are D9's choice
(log 10), and on a capacity of at least 1, D3 (log 2). -/
def Obligations.ResetMeetsTheInvariant : Prop := State.reset.Inv

/-- Every step keeps the invariant: the Register File stays canonical, the channel within its capacity, the byte stream made of frames
whose last one is as long as the phase says, the driver off in PREPARE, READ and WRITE. The bounded channel rests on D2 (log 4), the
held driver on D8 (log 9); the canonical form is the model's own (log 17). -/
def Obligations.StepKeepsTheInvariant : Prop :=
  ∀ s t : State, s.Inv → step s = .next t → t.Inv

/-- 43_framer.md R126 (e) and 20_memory.md R40: no step reorders, drops or rewrites a byte. The stream after a step is the stream
before it, with what the step pushed behind it: at most one byte in a tick, none by the host. That no byte is dropped rests on D2
(log 4), the lossless path to the host is log 28. -/
def Obligations.StreamOnlyGrows : Prop :=
  ∀ s : State, s.hb.length ≤ 2 → ∃ t, step s = .next t ∧
    (∃ pushed, t.stream = s.stream ++ pushed ∧
      ((∃ p, s.nextInput = .tick p) → pushed.length ≤ 1) ∧
      (s.nextInput = .hostPop ∨ s.nextInput = .hostEvent → pushed = []))

/-- 60_exceptions.md section 2: the interrupt lines are acted on by nothing. Two states that differ in their levels alone, on pins
that differ in them alone, still do after a tick. -/
def Obligations.InterruptLinesAreInert : Prop :=
  ∀ (s u : State) (p q : Lines), s.noIrq = u.noIrq → p.noIrq = q.noIrq →
    (s.tick p).noIrq = (u.tick q).noIrq

/-- 20_memory.md section 6: the Register File's contents never influence what the Cycle Decoder does. Two states with the same control
part, whatever their data bytes, perform the same operation and have the same control part after a tick. -/
def Obligations.DataNeverSteers : Prop :=
  ∀ (s u : State) (p q : Lines), s.control = u.control → p.noData = q.noData →
    s.stepOp = u.stepOp ∧ (s.tick p).control = (u.tick q).control
end

