-- ==== Sys2Proof/Laws/Decode.lean ====
section
/-! SUPPORT. The selection table (30_encoding.md R52) on the step vectors of the five phases, and the bytes of a frame word. -/

namespace Sys2Proof.Machine

/-- The operation the table selects in each phase, as R80's case distinction names it. -/
theorem decodeStep_idle (r cs rdN wrN : Bool) :
    decodeStep (stepBits .idle r cs rdN wrN) = .ok
      (if cs && !rdN then (if r then .idleRd else .idleStallRd)
       else if cs && !wrN then (if r then .idleWr else .idleStallWr)
       else if cs then .idleHoldRel else .idleHoldNsel) := by
  cases r <;> cases cs <;> cases rdN <;> cases wrN <;> rfl

theorem decodeStep_prepare (r cs rdN wrN : Bool) :
    decodeStep (stepBits .prepare r cs rdN wrN) = .ok
      (if !rdN then (if r then .prepareRd else .prepareStallRd)
       else if !wrN then (if r then .prepareWr else .prepareStallWr) else .prepareWait) := by
  cases r <;> cases cs <;> cases rdN <;> cases wrN <;> rfl

theorem decodeStep_read (r cs rdN wrN : Bool) :
    decodeStep (stepBits .read r cs rdN wrN) = .ok (if r then .readExec else .readStall) := by
  cases r <;> cases cs <;> cases rdN <;> cases wrN <;> rfl

theorem decodeStep_write (r cs rdN wrN : Bool) :
    decodeStep (stepBits .write r cs rdN wrN) = .ok (if r then .writeExec else .writeStall) := by
  cases r <;> cases cs <;> cases rdN <;> cases wrN <;> rfl

theorem decodeStep_cleanup (r cs rdN wrN : Bool) :
    decodeStep (stepBits .cleanup r cs rdN wrN) = .ok
      (if !rdN then .cleanupWaitRd else if !wrN then .cleanupWaitWr else .cleanupDone) := by
  cases r <;> cases cs <;> cases rdN <;> cases wrN <;> rfl

theorem frameByte0_frameWord (b0 b1 b2 : Byte) : frameByte0 (frameWord b0 b1 b2) = b0 := by
  apply BitVec.eq_of_toNat_eq
  have h0 := b0.isLt; have h1 := b1.isLt; have h2 := b2.isLt
  simp only [frameByte0, frameWord, BitVec.toNat_ofNat]
  omega

theorem frameByte1_frameWord (b0 b1 b2 : Byte) : frameByte1 (frameWord b0 b1 b2) = b1 := by
  apply BitVec.eq_of_toNat_eq
  have h0 := b0.isLt; have h1 := b1.isLt; have h2 := b2.isLt
  simp only [frameByte1, frameWord, BitVec.toNat_ofNat]
  omega

theorem frameByte2_frameWord (b0 b1 b2 : Byte) : frameByte2 (frameWord b0 b1 b2) = b2 := by
  apply BitVec.eq_of_toNat_eq
  have h0 := b0.isLt; have h1 := b1.isLt; have h2 := b2.isLt
  simp only [frameByte2, frameWord, BitVec.toNat_ofNat]
  omega

theorem frameWord_lt (b0 b1 b2 : Byte) : frameWord b0 b1 b2 < 2 ^ 24 := by
  have h0 := b0.isLt; have h1 := b1.isLt; have h2 := b2.isLt
  simp only [frameWord]
  omega

theorem addrByteOk_addrByte (a : Addr) : addrByteOk (addrByte a) = true := by
  revert a; decide

theorem addrOfByte_addrByte (a : Addr) : addrOfByte (addrByte a) = a := by
  revert a; decide

end Sys2Proof.Machine
end

