-- ==== Sys2Proof/Laws/Memory.lean ====
section
/-! SUPPORT. The Register File: what a read gives after a write, and that every operation keeps the canonical form. The read laws
hold for every list, canonical or not. -/

namespace Sys2Proof.Machine

theorem Memory.readAt_dropAt_same (m : Memory) (a : Nat) : (m.dropAt a).readAt a = unlisted := by
  induction m with
  | nil => rfl
  | cons c m ih =>
    by_cases h : c.1 = a
    · simp [Memory.dropAt, h, ih]
    · simp [Memory.dropAt, h, Memory.readAt, ih]

theorem Memory.readAt_dropAt_other (m : Memory) {a b : Nat} (h : b ≠ a) : (m.dropAt a).readAt b = m.readAt b := by
  induction m with
  | nil => rfl
  | cons c m ih =>
    by_cases hc : c.1 = a
    · have : c.1 ≠ b := fun e => h (e ▸ hc)
      simp [Memory.dropAt, hc, Memory.readAt, ih, Ne.symm h]
    · simp [Memory.dropAt, hc, Memory.readAt, ih]

theorem Memory.readAt_insertAt_other (m : Memory) {a b : Nat} (v : Byte) (h : b ≠ a) :
    (m.insertAt a v).readAt b = m.readAt b := by
  induction m with
  | nil => simp [Memory.insertAt, Memory.readAt, Ne.symm h]
  | cons c m ih =>
    by_cases hc : a < c.1
    · simp [Memory.insertAt, hc, Memory.readAt, Ne.symm h]
    · simp [Memory.insertAt, hc, Memory.readAt, ih]

theorem Memory.readAt_insertAt_same (m : Memory) (a : Nat) (v : Byte) :
    ((m.dropAt a).insertAt a v).readAt a = v := by
  induction m with
  | nil => simp [Memory.dropAt, Memory.insertAt, Memory.readAt]
  | cons c m ih =>
    by_cases h : c.1 = a
    · simpa [Memory.dropAt, h] using ih
    · by_cases hc : a < c.1
      · simp [Memory.dropAt, h, Memory.insertAt, hc, Memory.readAt]
      · simp [Memory.dropAt, h, Memory.insertAt, hc, Memory.readAt, ih]

/-- A read after a write gives the byte written there, and elsewhere what it gave before (R113). -/
theorem Memory.readAt_writeAt (m : Memory) (a b : Nat) (v : Byte) :
    (m.writeAt a v).readAt b = if b = a then v else m.readAt b := by
  unfold Memory.writeAt
  by_cases h : b = a
  · subst h
    by_cases hv : v = unlisted <;> simp [hv, Memory.readAt_dropAt_same, Memory.readAt_insertAt_same]
  · by_cases hv : v = unlisted <;>
      simp [hv, h, Memory.readAt_dropAt_other, Memory.readAt_insertAt_other]

@[simp] theorem Memory.read_write (m : Memory) (a b : Addr) (v : Byte) :
    (m.write a v).read b = if b = a then v else m.read b := by
  simp [Memory.read, Memory.write, Memory.readAt_writeAt, BitVec.toNat_inj]

theorem Memory.all_gt_dropAt {m : Memory} {k : Nat} (a : Nat) (h : m.all (fun c => decide (k < c.1)) = true) :
    (m.dropAt a).all (fun c => decide (k < c.1)) = true := by
  induction m with
  | nil => rfl
  | cons c m ih =>
    simp only [List.all_cons, Bool.and_eq_true] at h
    by_cases hc : c.1 = a <;> simp [Memory.dropAt, hc] <;> grind

theorem Memory.all_gt_insertAt {m : Memory} {k a : Nat} (v : Byte) (hk : k < a)
    (h : m.all (fun c => decide (k < c.1)) = true) :
    (m.insertAt a v).all (fun c => decide (k < c.1)) = true := by
  induction m with
  | nil => simp [Memory.insertAt, hk]
  | cons c m ih =>
    simp only [List.all_cons, Bool.and_eq_true] at h
    by_cases hc : a < c.1 <;> simp [Memory.insertAt, hc] <;> grind

theorem Memory.dropAt_wf {m : Memory} (a : Nat) (h : m.wf = true) : (m.dropAt a).wf = true := by
  induction m with
  | nil => rfl
  | cons c m ih =>
    simp only [Memory.wf, Bool.and_eq_true] at h
    by_cases hc : c.1 = a
    · simpa [Memory.dropAt, hc] using ih h.2
    · simp only [Memory.dropAt, hc, if_false, Memory.wf, Bool.and_eq_true]
      exact ⟨⟨h.1.1, Memory.all_gt_dropAt a h.1.2⟩, ih h.2⟩

theorem Memory.dropAt_keys (m : Memory) (a : Nat) : ∀ c ∈ m.dropAt a, c.1 ≠ a := by
  induction m with
  | nil => simp [Memory.dropAt]
  | cons c m ih =>
    by_cases hc : c.1 = a <;> simp [Memory.dropAt, hc] <;> grind

theorem Memory.insertAt_wf {m : Memory} {a : Nat} {v : Byte} (h : m.wf = true) (ha : a < rfN) (hv : v ≠ unlisted)
    (hkeys : ∀ c ∈ m, c.1 ≠ a) : (m.insertAt a v).wf = true := by
  induction m with
  | nil => simp [Memory.insertAt, Memory.wf, ha, hv]
  | cons c m ih =>
    simp only [Memory.wf, Bool.and_eq_true] at h
    by_cases hc : a < c.1
    · simp only [Memory.insertAt, hc, if_true, Memory.wf, List.all_cons, Bool.and_eq_true]
      refine ⟨⟨⟨by simp [ha], by simp [hv]⟩, by simp, ?_⟩, h⟩
      have := h.1.2
      simp only [List.all_eq_true, decide_eq_true_eq] at this ⊢
      exact fun x hx => lt_trans hc (this x hx)
    · have hne : c.1 ≠ a := hkeys c (by simp)
      simp only [Memory.insertAt, hc, if_false, Memory.wf, Bool.and_eq_true]
      exact ⟨⟨h.1.1, Memory.all_gt_insertAt v (by omega) h.1.2⟩, ih h.2 (fun x hx => hkeys x (by simp [hx]))⟩

/-- A write keeps the canonical form. -/
theorem Memory.write_wf {m : Memory} (h : m.wf = true) (a : Addr) (v : Byte) : (m.write a v).wf = true := by
  unfold Memory.write Memory.writeAt
  by_cases hv : v = unlisted
  · simp [hv, Memory.dropAt_wf _ h]
  · simpa [hv] using Memory.insertAt_wf (Memory.dropAt_wf _ h) a.isLt hv (Memory.dropAt_keys m _)

theorem Memory.reset_wf : State.reset.rf.wf = true := rfl

end Sys2Proof.Machine
end

