-- ==== Sys2Proof/Laws/State.lean ====
section
/-! SUPPORT. One lemma per field of State per update of it, each true by definition, so that no proof unfolds an update. -/

namespace Sys2Proof.Machine

variable (s : State)

/-! `push` -/

@[simp] theorem State.push_rf (b : Byte) : (s.push b).rf = s.rf := rfl
@[simp] theorem State.push_ph (b : Byte) : (s.push b).ph = s.ph := rfl
@[simp] theorem State.push_addrLatch (b : Byte) : (s.push b).addrLatch = s.addrLatch := rfl
@[simp] theorem State.push_oe (b : Byte) : (s.push b).oe = s.oe := rfl
@[simp] theorem State.push_dout (b : Byte) : (s.push b).dout = s.dout := rfl
@[simp] theorem State.push_smp (b : Byte) : (s.push b).smp = s.smp := rfl
@[simp] theorem State.push_sync (b : Byte) : (s.push b).sync = s.sync := rfl
@[simp] theorem State.push_ch (b : Byte) : (s.push b).ch = s.ch ++ [b] := rfl
@[simp] theorem State.push_hb (b : Byte) : (s.push b).hb = s.hb := rfl
@[simp] theorem State.push_log (b : Byte) : (s.push b).log = s.log := rfl
@[simp] theorem State.push_chDepth (b : Byte) : (s.push b).chDepth = s.chDepth := rfl
@[simp] theorem State.push_pins (b : Byte) : (s.push b).pins = s.pins := rfl
@[simp] theorem State.push_inputs (b : Byte) : (s.push b).inputs = s.inputs := rfl
@[simp] theorem State.push_moves (b : Byte) : (s.push b).moves = s.moves := rfl

/-! `goto` -/

@[simp] theorem State.goto_rf (p : Phase) : (s.goto p).rf = s.rf := rfl
@[simp] theorem State.goto_ph (p : Phase) : (s.goto p).ph = p := rfl
@[simp] theorem State.goto_addrLatch (p : Phase) : (s.goto p).addrLatch = s.addrLatch := rfl
@[simp] theorem State.goto_oe (p : Phase) : (s.goto p).oe = s.oe := rfl
@[simp] theorem State.goto_dout (p : Phase) : (s.goto p).dout = s.dout := rfl
@[simp] theorem State.goto_smp (p : Phase) : (s.goto p).smp = s.smp := rfl
@[simp] theorem State.goto_sync (p : Phase) : (s.goto p).sync = s.sync := rfl
@[simp] theorem State.goto_ch (p : Phase) : (s.goto p).ch = s.ch := rfl
@[simp] theorem State.goto_hb (p : Phase) : (s.goto p).hb = s.hb := rfl
@[simp] theorem State.goto_log (p : Phase) : (s.goto p).log = s.log := rfl
@[simp] theorem State.goto_chDepth (p : Phase) : (s.goto p).chDepth = s.chDepth := rfl
@[simp] theorem State.goto_pins (p : Phase) : (s.goto p).pins = s.pins := rfl
@[simp] theorem State.goto_inputs (p : Phase) : (s.goto p).inputs = s.inputs := rfl
@[simp] theorem State.goto_moves (p : Phase) : (s.goto p).moves = s.moves := rfl

/-! `latch` -/

@[simp] theorem State.latch_rf : (s.latch).rf = s.rf := rfl
@[simp] theorem State.latch_ph : (s.latch).ph = s.ph := rfl
@[simp] theorem State.latch_addrLatch : (s.latch).addrLatch = s.smp.a := rfl
@[simp] theorem State.latch_oe : (s.latch).oe = s.oe := rfl
@[simp] theorem State.latch_dout : (s.latch).dout = s.dout := rfl
@[simp] theorem State.latch_smp : (s.latch).smp = s.smp := rfl
@[simp] theorem State.latch_sync : (s.latch).sync = s.sync := rfl
@[simp] theorem State.latch_ch : (s.latch).ch = s.ch := rfl
@[simp] theorem State.latch_hb : (s.latch).hb = s.hb := rfl
@[simp] theorem State.latch_log : (s.latch).log = s.log := rfl
@[simp] theorem State.latch_chDepth : (s.latch).chDepth = s.chDepth := rfl
@[simp] theorem State.latch_pins : (s.latch).pins = s.pins := rfl
@[simp] theorem State.latch_inputs : (s.latch).inputs = s.inputs := rfl
@[simp] theorem State.latch_moves : (s.latch).moves = s.moves := rfl

/-! `driverOff` -/

@[simp] theorem State.driverOff_rf : (s.driverOff).rf = s.rf := rfl
@[simp] theorem State.driverOff_ph : (s.driverOff).ph = s.ph := rfl
@[simp] theorem State.driverOff_addrLatch : (s.driverOff).addrLatch = s.addrLatch := rfl
@[simp] theorem State.driverOff_oe : (s.driverOff).oe = false := rfl
@[simp] theorem State.driverOff_dout : (s.driverOff).dout = s.dout := rfl
@[simp] theorem State.driverOff_smp : (s.driverOff).smp = s.smp := rfl
@[simp] theorem State.driverOff_sync : (s.driverOff).sync = s.sync := rfl
@[simp] theorem State.driverOff_ch : (s.driverOff).ch = s.ch := rfl
@[simp] theorem State.driverOff_hb : (s.driverOff).hb = s.hb := rfl
@[simp] theorem State.driverOff_log : (s.driverOff).log = s.log := rfl
@[simp] theorem State.driverOff_chDepth : (s.driverOff).chDepth = s.chDepth := rfl
@[simp] theorem State.driverOff_pins : (s.driverOff).pins = s.pins := rfl
@[simp] theorem State.driverOff_inputs : (s.driverOff).inputs = s.inputs := rfl
@[simp] theorem State.driverOff_moves : (s.driverOff).moves = s.moves := rfl

/-! `drive` -/

@[simp] theorem State.drive_rf (v : Byte) : (s.drive v).rf = s.rf := rfl
@[simp] theorem State.drive_ph (v : Byte) : (s.drive v).ph = s.ph := rfl
@[simp] theorem State.drive_addrLatch (v : Byte) : (s.drive v).addrLatch = s.addrLatch := rfl
@[simp] theorem State.drive_oe (v : Byte) : (s.drive v).oe = true := rfl
@[simp] theorem State.drive_dout (v : Byte) : (s.drive v).dout = v := rfl
@[simp] theorem State.drive_smp (v : Byte) : (s.drive v).smp = s.smp := rfl
@[simp] theorem State.drive_sync (v : Byte) : (s.drive v).sync = s.sync := rfl
@[simp] theorem State.drive_ch (v : Byte) : (s.drive v).ch = s.ch := rfl
@[simp] theorem State.drive_hb (v : Byte) : (s.drive v).hb = s.hb := rfl
@[simp] theorem State.drive_log (v : Byte) : (s.drive v).log = s.log := rfl
@[simp] theorem State.drive_chDepth (v : Byte) : (s.drive v).chDepth = s.chDepth := rfl
@[simp] theorem State.drive_pins (v : Byte) : (s.drive v).pins = s.pins := rfl
@[simp] theorem State.drive_inputs (v : Byte) : (s.drive v).inputs = s.inputs := rfl
@[simp] theorem State.drive_moves (v : Byte) : (s.drive v).moves = s.moves := rfl

/-! `rfWrite` -/

@[simp] theorem State.rfWrite_rf (b : Byte) : (s.rfWrite b).rf = s.rf.write s.addrLatch b := rfl
@[simp] theorem State.rfWrite_ph (b : Byte) : (s.rfWrite b).ph = s.ph := rfl
@[simp] theorem State.rfWrite_addrLatch (b : Byte) : (s.rfWrite b).addrLatch = s.addrLatch := rfl
@[simp] theorem State.rfWrite_oe (b : Byte) : (s.rfWrite b).oe = s.oe := rfl
@[simp] theorem State.rfWrite_dout (b : Byte) : (s.rfWrite b).dout = s.dout := rfl
@[simp] theorem State.rfWrite_smp (b : Byte) : (s.rfWrite b).smp = s.smp := rfl
@[simp] theorem State.rfWrite_sync (b : Byte) : (s.rfWrite b).sync = s.sync := rfl
@[simp] theorem State.rfWrite_ch (b : Byte) : (s.rfWrite b).ch = s.ch := rfl
@[simp] theorem State.rfWrite_hb (b : Byte) : (s.rfWrite b).hb = s.hb := rfl
@[simp] theorem State.rfWrite_log (b : Byte) : (s.rfWrite b).log = s.log := rfl
@[simp] theorem State.rfWrite_chDepth (b : Byte) : (s.rfWrite b).chDepth = s.chDepth := rfl
@[simp] theorem State.rfWrite_pins (b : Byte) : (s.rfWrite b).pins = s.pins := rfl
@[simp] theorem State.rfWrite_inputs (b : Byte) : (s.rfWrite b).inputs = s.inputs := rfl
@[simp] theorem State.rfWrite_moves (b : Byte) : (s.rfWrite b).moves = s.moves := rfl

/-! `sampleLines` -/

@[simp] theorem State.sampleLines_rf : (s.sampleLines).rf = s.rf := rfl
@[simp] theorem State.sampleLines_ph : (s.sampleLines).ph = s.ph := rfl
@[simp] theorem State.sampleLines_addrLatch : (s.sampleLines).addrLatch = s.addrLatch := rfl
@[simp] theorem State.sampleLines_oe : (s.sampleLines).oe = s.oe := rfl
@[simp] theorem State.sampleLines_dout : (s.sampleLines).dout = s.dout := rfl
@[simp] theorem State.sampleLines_smp : (s.sampleLines).smp = s.sync.getLastD s.pins := rfl
@[simp] theorem State.sampleLines_sync : (s.sampleLines).sync = (s.pins :: s.sync).dropLast := rfl
@[simp] theorem State.sampleLines_ch : (s.sampleLines).ch = s.ch := rfl
@[simp] theorem State.sampleLines_hb : (s.sampleLines).hb = s.hb := rfl
@[simp] theorem State.sampleLines_log : (s.sampleLines).log = s.log := rfl
@[simp] theorem State.sampleLines_chDepth : (s.sampleLines).chDepth = s.chDepth := rfl
@[simp] theorem State.sampleLines_pins : (s.sampleLines).pins = s.pins := rfl
@[simp] theorem State.sampleLines_inputs : (s.sampleLines).inputs = s.inputs := rfl
@[simp] theorem State.sampleLines_moves : (s.sampleLines).moves = s.moves := rfl

/-! `accept` -/

@[simp] theorem State.accept_rf : (s.accept).rf = s.rf := rfl
@[simp] theorem State.accept_ph : (s.accept).ph = s.ph := rfl
@[simp] theorem State.accept_addrLatch : (s.accept).addrLatch = s.addrLatch := rfl
@[simp] theorem State.accept_oe : (s.accept).oe = s.oe := rfl
@[simp] theorem State.accept_dout : (s.accept).dout = s.dout := rfl
@[simp] theorem State.accept_smp : (s.accept).smp = s.smp := rfl
@[simp] theorem State.accept_sync : (s.accept).sync = s.sync := rfl
@[simp] theorem State.accept_ch : (s.accept).ch = s.ch := rfl
@[simp] theorem State.accept_hb : (s.accept).hb = s.hb := rfl
@[simp] theorem State.accept_log : (s.accept).log = s.log := rfl
@[simp] theorem State.accept_chDepth : (s.accept).chDepth = s.chDepth := rfl
@[simp] theorem State.accept_pins : (s.accept).pins = s.nextInput.pinsAfter s.pins := rfl
@[simp] theorem State.accept_inputs : (s.accept).inputs = s.inputs.tail := rfl
@[simp] theorem State.accept_moves : (s.accept).moves = s.moves + 1 := rfl

end Sys2Proof.Machine
end

