-- ==== Sys2Proof/Laws/Ops.lean ====
section
/-! SUPPORT. One lemma per shared operation that says everything it can do. -/

namespace Sys2Proof.Machine

variable (s : State)

theorem State.ready_iff : s.ready = true ↔ s.ch.length < s.chDepth := by simp [State.ready]

@[simp] theorem State.driverOff_ready : s.driverOff.ready = s.ready := rfl

/-- With room, a pushing operation does its effect on the state with the byte queued; without, it holds (R121, R123). -/
theorem State.pushing_cases (b : Byte) (f : State → State) :
    (s.ready = true ∧ s.pushing b f = f (s.push b)) ∨ (s.ready = false ∧ s.pushing b f = s) := by
  cases h : s.ready <;> simp [State.pushing, h]

/-- R82, R83 with room. -/
theorem State.idleStart_ready (tag : Byte) (h : s.ready = true) :
    s.idleStart tag = { s with oe := false, ch := s.ch ++ [tag], addrLatch := s.smp.a, ph := .prepare } := by
  rw [State.idleStart, State.pushing, if_pos (by simpa using h)]
  rfl

/-- R85: without room only the driver is turned off. -/
theorem State.idleStart_full (tag : Byte) (h : s.ready = false) : s.idleStart tag = s.driverOff := by
  simp [State.idleStart, State.pushing, h]

/-- R86, R87 with room. -/
theorem State.prepareExit_ready (ph : Phase) (h : s.ready = true) :
    s.prepareExit ph = { s with ch := s.ch ++ [addrByte s.addrLatch], ph := ph } := by
  simp [State.prepareExit, State.pushing, h, State.push, State.goto]

/-- R89. -/
theorem State.prepareExit_full (ph : Phase) (h : s.ready = false) : s.prepareExit ph = s := by
  simp [State.prepareExit, State.pushing, h]

/-- R90 with room. -/
theorem State.readData_ready (h : s.ready = true) :
    s.readData = { s with dout := s.rf.read s.addrLatch, oe := true, ch := s.ch ++ [s.rf.read s.addrLatch],
                          ph := .cleanup } := by
  simp [State.readData, State.pushing, h, State.push, State.goto, State.drive, State.rfRdData, State.rfAddr]

/-- R91. -/
theorem State.readData_full (h : s.ready = false) : s.readData = s := by simp [State.readData, State.pushing, h]

/-- R92 with room. -/
theorem State.writeData_ready (h : s.ready = true) :
    s.writeData = { s with rf := s.rf.write s.addrLatch s.smp.d, ch := s.ch ++ [s.smp.d], ph := .cleanup } := by
  simp [State.writeData, State.pushing, h, State.push, State.goto, State.rfWrite, State.rfWrData, State.rfAddr]

/-- R93. -/
theorem State.writeData_full (h : s.ready = false) : s.writeData = s := by simp [State.writeData, State.pushing, h]

/-- What the host does with a byte (R141). -/
theorem State.hostByte_cases (b : Byte) :
    (∃ tag addr rest, s.hb = tag :: addr :: rest ∧
      s.hostByte b = { s with log := s.log ++ [⟨tag, addr, b⟩], hb := [] }) ∨
    (s.hb.length < 2 ∧ s.hostByte b = { s with hb := s.hb ++ [b] }) := by
  rcases h : s.hb with _ | ⟨x, _ | ⟨y, rest⟩⟩
  · right; simp [State.hostByte, h]
  · right; simp [State.hostByte, h]
  · left; exact ⟨x, y, rest, rfl, by simp [State.hostByte, h]⟩

/-- The host's byte leaves all of the hardware's state and the model's inputs alone. -/
theorem State.hostByte_frame (b : Byte) : { s.hostByte b with hb := s.hb, log := s.log } = s := by
  rcases s.hostByte_cases b with ⟨_, _, _, _, h⟩ | ⟨_, h⟩ <;> rw [h]

/-- HostPop (R141). -/
theorem State.popByte_cases :
    (s.ch = [] ∧ s.popByte = s) ∨
    (∃ b rest, s.ch = b :: rest ∧ s.popByte = { s with ch := rest }.hostByte b) := by
  rcases h : s.ch with _ | ⟨b, rest⟩
  · left; simp [State.popByte, h]
  · right; exact ⟨b, rest, rfl, by simp [State.popByte, h]⟩

/-- Everything the Cycle Decoder can do in a tick (R81): phase, guard and result, one line per outcome. -/
theorem State.cycleDecoder_cases (cs rdN wrN : Bool) :
    (s.ph = .idle ∧ cs = true ∧ rdN = false ∧ s.ready = true ∧ s.cycleDecoder cs rdN wrN =
      { s with oe := false, ch := s.ch ++ [tagReadTrace], addrLatch := s.smp.a, ph := .prepare }) ∨
    (s.ph = .idle ∧ cs = true ∧ rdN = true ∧ wrN = false ∧ s.ready = true ∧ s.cycleDecoder cs rdN wrN =
      { s with oe := false, ch := s.ch ++ [tagWriteTrace], addrLatch := s.smp.a, ph := .prepare }) ∨
    (s.ph = .idle ∧ (cs = false ∨ rdN = true ∧ wrN = true ∨ s.ready = false) ∧
      s.cycleDecoder cs rdN wrN = { s with oe := false }) ∨
    (s.ph = .prepare ∧ rdN = false ∧ s.ready = true ∧ s.cycleDecoder cs rdN wrN =
      { s with ch := s.ch ++ [addrByte s.addrLatch], ph := .read }) ∨
    (s.ph = .prepare ∧ rdN = true ∧ wrN = false ∧ s.ready = true ∧ s.cycleDecoder cs rdN wrN =
      { s with ch := s.ch ++ [addrByte s.addrLatch], ph := .write }) ∨
    (s.ph = .prepare ∧ (rdN = true ∧ wrN = true ∨ s.ready = false) ∧ s.cycleDecoder cs rdN wrN = s) ∨
    (s.ph = .read ∧ s.ready = true ∧ s.cycleDecoder cs rdN wrN =
      { s with dout := s.rf.read s.addrLatch, oe := true, ch := s.ch ++ [s.rf.read s.addrLatch], ph := .cleanup }) ∨
    (s.ph = .read ∧ s.ready = false ∧ s.cycleDecoder cs rdN wrN = s) ∨
    (s.ph = .write ∧ s.ready = true ∧ s.cycleDecoder cs rdN wrN =
      { s with rf := s.rf.write s.addrLatch s.smp.d, ch := s.ch ++ [s.smp.d], ph := .cleanup }) ∨
    (s.ph = .write ∧ s.ready = false ∧ s.cycleDecoder cs rdN wrN = s) ∨
    (s.ph = .cleanup ∧ rdN = true ∧ wrN = true ∧ s.cycleDecoder cs rdN wrN = { s with ph := .idle }) ∨
    (s.ph = .cleanup ∧ (rdN = false ∨ wrN = false) ∧ s.cycleDecoder cs rdN wrN = s) := by
  cases h : s.ph <;> cases hr : s.ready <;> cases cs <;> cases rdN <;> cases wrN <;>
    simp [State.cycleDecoder, h, s.idleStart_ready, s.idleStart_full, s.prepareExit_ready, s.prepareExit_full,
      s.readData_ready, s.readData_full, s.writeData_ready, s.writeData_full, hr, State.driverOff, State.goto]

/-- The Cycle Decoder leaves the sampler, the host, the parameter and the inputs alone (R102). -/
theorem State.cycleDecoder_frame (cs rdN wrN : Bool) :
    { s.cycleDecoder cs rdN wrN with rf := s.rf, ph := s.ph, addrLatch := s.addrLatch, oe := s.oe, dout := s.dout,
                                     ch := s.ch } = s := by
  rcases s.cycleDecoder_cases cs rdN wrN with ⟨-, -, -, -, h⟩ | ⟨-, -, -, -, -, h⟩ | ⟨-, -, h⟩ | ⟨-, -, -, h⟩ |
    ⟨-, -, -, -, h⟩ | ⟨-, -, h⟩ | ⟨-, -, h⟩ | ⟨-, -, h⟩ | ⟨-, -, h⟩ | ⟨-, -, h⟩ | ⟨-, -, -, h⟩ | ⟨-, -, h⟩ <;> rw [h]

/-- The Cycle Decoder does not look at the pins (R70), nor at what is pending. -/
theorem State.cycleDecoder_pins (p : Lines) (inputs : List Input) (moves : Nat) (cs rdN wrN : Bool) :
    State.cycleDecoder cs rdN wrN { s with pins := p, inputs := inputs, moves := moves } =
      { s.cycleDecoder cs rdN wrN with pins := p, inputs := inputs, moves := moves } := by
  cases h : s.ph <;> cases cs <;> cases rdN <;> cases wrN <;>
    by_cases hl : s.ch.length < s.chDepth <;>
    simp [State.cycleDecoder, h, hl, State.idleStart, State.prepareExit, State.readData, State.writeData,
      State.pushing, State.ready, State.driverOff, State.push, State.latch, State.goto, State.drive, State.rfWrite,
      State.rfRdData, State.rfWrData, State.rfAddr]

/-- A tick is the Cycle Decoder's part with the pins shifted into the synchronizer (R71, R73, R80). -/
theorem State.tick_eq (p : Lines) :
    s.tick p = { s.cycleDecoder s.smp.cs s.smp.rdN s.smp.wrN with
                 pins := p, smp := s.sync.getLastD p, sync := (p :: s.sync).dropLast } := by
  have h := congrArg State.sync (s.cycleDecoder_frame s.smp.cs s.smp.rdN s.smp.wrN)
  simp only at h
  simp [State.tick, State.sampleLines, h]

@[simp] theorem State.ticks_nil : s.ticks [] = s := rfl

@[simp] theorem State.ticks_cons (p : Lines) (ps : List Lines) : s.ticks (p :: ps) = (s.tick p).ticks ps := rfl

theorem State.ticks_append (ps qs : List Lines) : s.ticks (ps ++ qs) = (s.ticks ps).ticks qs := by
  simp [State.ticks]

end Sys2Proof.Machine
end

