-- ==== Sys2Proof/Laws/PerInstr.lean ====
section
/-! SUPPORT. Statements about every instruction as syntax, one lemma per constructor. -/

namespace Sys2Proof.Laws.EncodingFits

/-- The instruction's word fits the length of its format (30_encoding.md R50: every format has one fixed length). -/
def Statement (i : Instr) : Prop := ∀ f w, encode i = some (f, w) → w < 2 ^ f.bits

theorem constant {i : Instr} {g : Format} {v : Nat} (h : encode i = some (g, v)) (hv : v < 2 ^ g.bits) : Statement i := by
  intro f w hw
  obtain ⟨rfl, rfl⟩ : g = f ∧ v = w := by simpa [h] using hw
  exact hv

theorem idleRd : Statement .idleRd := constant rfl (by decide)
theorem idleWr : Statement .idleWr := constant rfl (by decide)
theorem idleHoldNsel : Statement .idleHoldNsel := constant rfl (by decide)
theorem idleHoldRel : Statement .idleHoldRel := constant rfl (by decide)
theorem idleStallRd : Statement .idleStallRd := constant rfl (by decide)
theorem idleStallWr : Statement .idleStallWr := constant rfl (by decide)
theorem prepareRd : Statement .prepareRd := constant rfl (by decide)
theorem prepareWr : Statement .prepareWr := constant rfl (by decide)
theorem prepareWait : Statement .prepareWait := constant rfl (by decide)
theorem prepareStallRd : Statement .prepareStallRd := constant rfl (by decide)
theorem prepareStallWr : Statement .prepareStallWr := constant rfl (by decide)
theorem readExec : Statement .readExec := constant rfl (by decide)
theorem readStall : Statement .readStall := constant rfl (by decide)
theorem writeExec : Statement .writeExec := constant rfl (by decide)
theorem writeStall : Statement .writeStall := constant rfl (by decide)
theorem cleanupWaitRd : Statement .cleanupWaitRd := constant rfl (by decide)
theorem cleanupWaitWr : Statement .cleanupWaitWr := constant rfl (by decide)
theorem cleanupDone : Statement .cleanupDone := constant rfl (by decide)
theorem readTrace (addr data : Byte) : Statement (.readTrace addr data) := constant rfl (Machine.frameWord_lt _ _ _)
theorem writeTrace (addr data : Byte) : Statement (.writeTrace addr data) := constant rfl (Machine.frameWord_lt _ _ _)
theorem nop (addr data : Byte) : Statement (.nop addr data) := constant rfl (Machine.frameWord_lt _ _ _)
theorem read (addr data : Byte) : Statement (.read addr data) := constant rfl (Machine.frameWord_lt _ _ _)
theorem write (addr data : Byte) : Statement (.write addr data) := constant rfl (Machine.frameWord_lt _ _ _)
theorem busctl0 : Statement .busctl0 := constant rfl (by decide)
theorem busctl1 : Statement .busctl1 := constant rfl (by decide)
theorem busctl2 : Statement .busctl2 := constant rfl (by decide)
theorem busctl3 : Statement .busctl3 := constant rfl (by decide)
theorem busctl4 : Statement .busctl4 := constant rfl (by decide)
theorem busctl5 : Statement .busctl5 := constant rfl (by decide)
theorem busctl6 : Statement .busctl6 := constant rfl (by decide)
theorem busctl7 : Statement .busctl7 := constant rfl (by decide)
theorem sample : Statement .sample := by intro f w h; cases h
theorem hostPop : Statement .hostPop := by intro f w h; cases h
theorem event (tag addr data : Byte) : Statement (.event tag addr data) := constant rfl (Machine.frameWord_lt _ _ _)

end Sys2Proof.Laws.EncodingFits
end

