-- ==== Sys2Proof/Laws/Step.lean ====
section
/-! SUPPORT. What a step can be: the fetched instruction's meaning, and SAMPLE in a tick; and how runs of instructions and moves go on. -/

namespace Sys2Proof.Machine

variable (s : State)

theorem State.finish_tick : s.finish true = .next s.sampleLines := rfl

theorem State.finish_other : s.finish false = .next s := rfl

/-- `step` on a fetched instruction that answers a next state. -/
theorem step_of_fetch {i : Instr} {t : State} (hf : s.fetch = .ok i) (he : exec i s.accept = .next t) :
    step s = t.finish s.nextInput.isTick := by
  simp [step, hf, he]

theorem State.accept_tick {p : Lines} (h : s.nextInput = .tick p) :
    s.accept = { s with pins := p, inputs := s.inputs.tail, moves := s.moves + 1 } := by
  simp [State.accept, h, Input.pinsAfter]

theorem State.fetch_tick {p : Lines} (h : s.nextInput = .tick p) : s.fetch = decodeStep s.stepVector := by
  simp [State.fetch, State.fetchFor, h, State.stepOp]

@[simp] theorem State.execAll_nil : s.execAll [] = .next s := rfl

/-- Running a list goes on from the state its first instruction answers. -/
theorem State.execAll_cons {i : Instr} {t : State} (h : exec i s = .next t) (is : List Instr) :
    s.execAll (i :: is) = t.execAll is := by
  simp [State.execAll, h]

@[simp] theorem State.takeMoves_nil : s.takeMoves [] = .next s := rfl

/-- Taking moves goes on from the state the first move's step answers. -/
theorem State.takeMoves_cons {m : Input} {t : State} (h : step (s.withInput m) = .next t) (ms : List Input) :
    s.takeMoves (m :: ms) = t.takeMoves ms := by
  simp [State.takeMoves, h]

@[simp] theorem State.withInput_nextInput (m : Input) : (s.withInput m).nextInput = m := rfl

end Sys2Proof.Machine
end

