-- ==== Sys2Proof/Tests/Slice0.lean ====
section
/-! SUPPORT. Small tests, each on one step. Expected results are the spec's: the encoding tables of 30_encoding.md, the single-step
vectors V, K, S and H of 95_test_vectors.md Part 2 (CH_DEPTH = 4), its scenarios E7 to E9, and Part 3's programs where named.
After them, for every obligation with hypotheses, a witness that meets them. -/

namespace Sys2Proof.Tests

open Sys2Proof Sys2Proof.Machine

/-! ### WellFormed and the words of 30_encoding.md -/

theorem test_wf_read_trace_refuses_addr_8 : (Instr.readTrace 0x08 0x00).wf = false := by decide
theorem test_wf_write_trace_refuses_addr_FF : (Instr.writeTrace 0xFF 0x00).wf = false := by decide
theorem test_wf_frames_take_addr_7 :
    (Instr.readTrace 0x07 0x00).wf = true ∧ (Instr.writeTrace 0x07 0xFF).wf = true ∧ (Instr.nop 0xFF 0xFF).wf = true := by
  decide

/-- R52, phase IDLE: `000 1 1 0 x`, `000 1 1 1 0`, `000 x 0 x x`, `000 x 1 1 1`, `000 0 1 0 x`, `000 0 1 1 0`. -/
theorem test_decode_step_idle :
    decodeTableWord 7 0b0001100 = some .idleRd ∧ decodeTableWord 7 0b0001101 = some .idleRd ∧
    decodeTableWord 7 0b0001110 = some .idleWr ∧ decodeTableWord 7 0b0001011 = some .idleHoldNsel ∧
    decodeTableWord 7 0b0000000 = some .idleHoldNsel ∧ decodeTableWord 7 0b0000111 = some .idleHoldRel ∧
    decodeTableWord 7 0b0001111 = some .idleHoldRel ∧ decodeTableWord 7 0b0000101 = some .idleStallRd ∧
    decodeTableWord 7 0b0000110 = some .idleStallWr := by decide

/-- R52, phase PREPARE: `001 1 x 0 x`, `001 1 x 1 0`, `001 x x 1 1`, `001 0 x 0 x`, `001 0 x 1 0`. -/
theorem test_decode_step_prepare :
    decodeTableWord 7 0b0011000 = some .prepareRd ∧ decodeTableWord 7 0b0011101 = some .prepareRd ∧
    decodeTableWord 7 0b0011010 = some .prepareWr ∧ decodeTableWord 7 0b0011111 = some .prepareWait ∧
    decodeTableWord 7 0b0010011 = some .prepareWait ∧ decodeTableWord 7 0b0010101 = some .prepareStallRd ∧
    decodeTableWord 7 0b0010110 = some .prepareStallWr := by decide

/-- R52, phases READ and WRITE: bits 2 to 0 are not looked at. -/
theorem test_decode_step_data :
    decodeTableWord 7 0b0101000 = some .readExec ∧ decodeTableWord 7 0b0101111 = some .readExec ∧
    decodeTableWord 7 0b0100101 = some .readStall ∧ decodeTableWord 7 0b0111110 = some .writeExec ∧
    decodeTableWord 7 0b0110011 = some .writeStall := by decide

/-- R52, phase CLEANUP, and the phase codes that are never held (R60). -/
theorem test_decode_step_cleanup :
    decodeTableWord 7 0b1000001 = some .cleanupWaitRd ∧ decodeTableWord 7 0b1001110 = some .cleanupWaitWr ∧
    decodeTableWord 7 0b1000111 = some .cleanupDone ∧ decodeTableWord 7 0b1010000 = none ∧
    decodeTableWord 7 0b1100000 = none ∧ decodeTableWord 7 0b1111111 = none := by decide

/-- R51: bit 2 is `cs_s`, bit 1 `rd_n_s`, bit 0 `wr_n_s`. -/
theorem test_decode_busctl :
    decodeTableWord 3 0b000 = some .busctl0 ∧ decodeTableWord 3 0b001 = some .busctl1 ∧
    decodeTableWord 3 0b010 = some .busctl2 ∧ decodeTableWord 3 0b011 = some .busctl3 ∧
    decodeTableWord 3 0b100 = some .busctl4 ∧ decodeTableWord 3 0b101 = some .busctl5 ∧
    decodeTableWord 3 0b110 = some .busctl6 ∧ decodeTableWord 3 0b111 = some .busctl7 := by decide

/-- R53, R54, R57 and the scenario frames: tag, address byte, data byte. -/
theorem test_decode_frame :
    decodeTableWord 24 0b000000110000000100000000 = some (.readTrace 0x01 0x00) ∧
    decodeTableWord 24 0b000001000000000110101010 = some (.writeTrace 0x01 0xAA) ∧
    decodeTableWord 24 0b000000000000010110000000 = some (.nop 0x05 0x80) ∧
    decodeTableWord 24 0b000000011111111100000001 = some (.read 0xFF 0x01) ∧
    decodeTableWord 24 0b000000100000000000000000 = some (.write 0x00 0x00) := by decide

/-- R142, R143: bytes that are no frame of R53 are still an event. R53: bits 15 to 11 of an emitted frame are 0. -/
theorem test_decode_event :
    decodeTableWord 24 0b011111110000000000001001 = some (.event 0x7F 0x00 0x09) ∧
    (decode .frame 0x7F0009).toOption = none ∧ (decode .frame 0x030800).toOption = none := by decide

/-- R50: a frame is exactly three bytes. -/
theorem test_decode_frame_truncated : (decodeFrameBytes [0x03, 0x01]).toOption = none := by decide

/-! ### The vectors of 95_test_vectors.md Part 2 -/

/-- The pin record `cs rd_n wr_n a d` with interrupt lines 0. -/
def pin (cs rdN wrN : Bool) (a : Addr) (d : Byte) : Lines := ⟨cs, rdN, wrN, a, d, 0⟩

/-- A state of Part 2: phase, sampled lines, `addr_latch`, `oe`, `dout`, `ch`, Register File; CH_DEPTH = 4. -/
def st (ph : Phase) (smp : Lines) (latch : Addr) (oe : Bool) (dout : Byte) (ch : List Byte) (rf : Memory := []) : State :=
  { State.reset with ph := ph, smp := smp, addrLatch := latch, oe := oe, dout := dout, ch := ch, rf := rf, chDepth := 4 }

/-- One tick on the pins. -/
def ticked (s : State) (p : Lines) : Host.Outcome State Fault Refusal := step (s.withInput (.tick p))

/-- What every tick does besides its operation: the sampler takes the pins, the move is used up. -/
def sampled (s : State) (p : Lines) : State := { s with smp := p, pins := p, moves := s.moves + 1 }

def v1 : State := st .idle (pin true false true 5 0x00) 2 true 0x7E []
theorem test_v1 : v1.stepVector = 0x0D ∧ ticked v1 (pin true false true 5 0x00) =
    .next (sampled { v1 with ch := [0x03], addrLatch := 5, ph := .prepare, oe := false } (pin true false true 5 0x00)) :=
  ⟨rfl, rfl⟩

def v2 : State := st .idle (pin true true false 7 0xFF) 0 false 0x00 [0x03, 0x01, 0x00]
theorem test_v2 : v2.stepVector = 0x0E ∧ ticked v2 (pin true true false 7 0xFF) =
    .next (sampled { v2 with ch := [0x03, 0x01, 0x00, 0x04], addrLatch := 7, ph := .prepare } (pin true true false 7 0xFF)) :=
  ⟨rfl, rfl⟩

def v3 : State := st .idle (pin false false false 3 0x12) 6 true 0x55 []
theorem test_v3 : v3.stepVector = 0x08 ∧ ticked v3 (pin false true true 0 0x00) =
    .next (sampled { v3 with oe := false } (pin false true true 0 0x00)) := ⟨rfl, rfl⟩

def v4 : State := st .idle (pin true true true 3 0x12) 6 false 0x55 [0xAA]
theorem test_v4 : v4.stepVector = 0x0F ∧ ticked v4 (pin true true true 3 0x12) =
    .next (sampled v4 (pin true true true 3 0x12)) := ⟨rfl, rfl⟩

def v5 : State := st .idle (pin true false true 5 0x00) 2 true 0x7E [0x11, 0x03, 0x01, 0x00]
theorem test_v5 : v5.stepVector = 0x05 ∧ ticked v5 (pin true false true 5 0x00) =
    .next (sampled { v5 with oe := false } (pin true false true 5 0x00)) := ⟨rfl, rfl⟩

/-- V5 with the write-strobe low instead: R85's second row. -/
def v5w : State := st .idle (pin true true false 5 0x00) 2 true 0x7E [0x11, 0x03, 0x01, 0x00]
theorem test_v5_write : v5w.stepVector = 0x06 ∧ ticked v5w (pin true true false 5 0x00) =
    .next (sampled { v5w with oe := false } (pin true true false 5 0x00)) := ⟨rfl, rfl⟩

def v6 : State := st .prepare (pin true false true 5 0x00) 5 false 0x7E [0x03]
theorem test_v6 : v6.stepVector = 0x1D ∧ ticked v6 (pin true false true 5 0x00) =
    .next (sampled { v6 with ch := [0x03, 0x05], ph := .read } (pin true false true 5 0x00)) := ⟨rfl, rfl⟩

def v7 : State := st .prepare (pin false true false 0 0xFF) 7 false 0x00 [0x04]
theorem test_v7 : v7.stepVector = 0x1A ∧ ticked v7 (pin true true false 7 0xFF) =
    .next (sampled { v7 with ch := [0x04, 0x07], ph := .write } (pin true true false 7 0xFF)) := ⟨rfl, rfl⟩

def v8 : State := st .prepare (pin true true true 5 0x00) 5 false 0x00 [0x03]
theorem test_v8 : v8.stepVector = 0x1F ∧ ticked v8 (pin true true true 5 0x00) =
    .next (sampled v8 (pin true true true 5 0x00)) := ⟨rfl, rfl⟩

/-- V8's note: also taken when `ready = 0`. -/
theorem test_v8_full : State.stepVector { v8 with chDepth := 1 } = 0x17 ∧
    State.stepOp { v8 with chDepth := 1 } = .ok .prepareWait := ⟨rfl, rfl⟩

/-- Program P3b tick 3: PREPARE.STALL with the read-strobe low. -/
def p3b : State := st .prepare (pin true false true 6 0x00) 6 false 0x00 [0x03, 0x01, 0x00, 0x03]
theorem test_prepare_stall_read : p3b.stepVector = 0x15 ∧ ticked p3b (pin true false true 6 0x00) =
    .next (sampled p3b (pin true false true 6 0x00)) := ⟨rfl, rfl⟩

def v9 : State := st .prepare (pin true true false 7 0xFF) 7 false 0x00 [0x03, 0x01, 0x00, 0x04]
theorem test_v9 : v9.stepVector = 0x16 ∧ ticked v9 (pin true true false 7 0xFF) =
    .next (sampled v9 (pin true true false 7 0xFF)) := ⟨rfl, rfl⟩

def v10 : State := st .read (pin true false true 5 0x3C) 5 false 0x7E [0x03, 0x05] [(5, 0x9D)]
theorem test_v10 : v10.stepVector = 0x2D ∧ ticked v10 (pin true false true 5 0x3C) =
    .next (sampled { v10 with dout := 0x9D, oe := true, ch := [0x03, 0x05, 0x9D], ph := .cleanup }
      (pin true false true 5 0x3C)) := ⟨rfl, rfl⟩

def v11 : State := st .read (pin true false true 5 0x00) 5 false 0x7E [0xAA, 0xBB, 0xCC, 0xDD] [(5, 0x9D)]
theorem test_v11 : v11.stepVector = 0x25 ∧ ticked v11 (pin true false true 5 0x00) =
    .next (sampled v11 (pin true false true 5 0x00)) := ⟨rfl, rfl⟩

def v12 : State := st .write (pin true true false 2 0xFF) 7 false 0x00 [0x04, 0x07] [(2, 0x22), (7, 0x11)]
theorem test_v12 : v12.stepVector = 0x3E ∧ ticked v12 (pin true true false 2 0x00) =
    .next (sampled { v12 with rf := [(2, 0x22), (7, 0xFF)], ch := [0x04, 0x07, 0xFF], ph := .cleanup }
      (pin true true false 2 0x00)) := ⟨rfl, rfl⟩

/-- K4: zero data over a non-zero entry; the entry is no longer listed. -/
theorem test_k4 : exec .writeExec (st .write (pin true true false 0 0x00) 0 false 0x00 [] [(0, 0x5A)]) =
    .next (st .cleanup (pin true true false 0 0x00) 0 false 0x00 [0x00]) := rfl

def v13 : State := st .write (pin true true false 7 0xFF) 7 false 0x00 [0xAA, 0xBB, 0xCC, 0xDD] [(7, 0x11)]
theorem test_v13 : v13.stepVector = 0x36 ∧ ticked v13 (pin true true false 7 0xEE) =
    .next (sampled v13 (pin true true false 7 0xEE)) := ⟨rfl, rfl⟩

def v14 : State := st .cleanup (pin false false true 0 0x00) 5 true 0x9D [0x03, 0x05, 0x9D]
theorem test_v14 : v14.stepVector = 0x49 ∧ ticked v14 (pin false true true 0 0x00) =
    .next (sampled v14 (pin false true true 0 0x00)) := ⟨rfl, rfl⟩

def v15 : State := st .cleanup (pin true true false 7 0xFF) 7 false 0x00 [0x04, 0x07, 0xFF]
theorem test_v15 : v15.stepVector = 0x4E ∧ ticked v15 (pin true true false 7 0xFF) =
    .next (sampled v15 (pin true true false 7 0xFF)) := ⟨rfl, rfl⟩

def v16 : State := st .cleanup (pin true true true 0 0x00) 5 true 0x9D [0x03, 0x05, 0x9D]
theorem test_v16 : v16.stepVector = 0x4F ∧ ticked v16 (pin false true true 0 0x00) =
    .next (sampled { v16 with ph := .idle } (pin false true true 0 0x00)) := ⟨rfl, rfl⟩

/-- S1: a synchronizer of one stage takes the pins, interrupt lines included. -/
theorem test_s1 : exec .sample { v1 with pins := ⟨true, false, true, 5, 0x3C, 2⟩ } =
    .next { v1 with pins := ⟨true, false, true, 5, 0x3C, 2⟩, smp := ⟨true, false, true, 5, 0x3C, 2⟩ } := rfl

/-- R73: with a stage between, the Cycle Decoder's view is what that stage held. -/
theorem test_sample_two_stages : exec .sample { v1 with pins := pin true true true 1 0x11, sync := [pin false true true 2 0x22] } =
    .next { v1 with pins := pin true true true 1 0x11, sync := [pin true true true 1 0x11], smp := pin false true true 2 0x22 } :=
  rfl

/-! BUSCTL, from the table of R51. -/

theorem test_busctl0 : exec .busctl0 v8 = .next { v8 with ch := [0x03, 0x05], ph := .read } := rfl
theorem test_busctl1 : exec .busctl1 v1 = .next { v1 with oe := false } := rfl
theorem test_busctl2 : exec .busctl2 v8 = .next { v8 with ch := [0x03, 0x05], ph := .write } := rfl
theorem test_busctl3 : exec .busctl3 v14 = .next { v14 with ph := .idle } := rfl
/-- K1: both strobes low in IDLE, selected. -/
theorem test_busctl4 : exec .busctl4 (st .idle (pin true false false 4 0x00) 0 false 0x00 []) =
    .next (st .prepare (pin true false false 4 0x00) 4 false 0x00 [0x03]) := rfl
theorem test_busctl5 : exec .busctl5 v16 = .next v16 := rfl
theorem test_busctl6 : exec .busctl6 v4 = .next { v4 with ch := [0xAA, 0x04], addrLatch := 3, ph := .prepare } := rfl
theorem test_busctl7 : exec .busctl7 v6 = .next v6 := rfl

/-! Bus cycles: scenarios E7, E8 and E9, with the channel's capacity at 4. -/

/-- The reset state with CH_DEPTH = 4. -/
def power : State := { State.reset with chDepth := 4 }

theorem test_scenario_a : ∃ t, exec (.readTrace 0x01 0x00) power = .next t ∧ t.ch = [0x03, 0x01, 0x00] ∧ t.ph = .idle :=
  ⟨_, rfl, rfl, rfl⟩
theorem test_scenario_b : ∃ t, exec (.writeTrace 0x01 0xAA) power = .next t ∧ t.ch = [0x04, 0x01, 0xAA] ∧ t.rf = [(1, 0xAA)] :=
  ⟨_, rfl, rfl, rfl⟩
theorem test_scenario_c : ∃ t, exec (.readTrace 0x01 0x00) { power with rf := [(1, 0xAA)] } = .next t ∧
    t.ch = [0x03, 0x01, 0xAA] ∧ t.rf = [(1, 0xAA)] := ⟨_, rfl, rfl, rfl⟩

/-! The host. -/

/-- H1. -/
theorem test_h1 : exec .hostPop { power with ch := [0x03, 0x01, 0x00, 0x04] } =
    .next { power with ch := [0x01, 0x00, 0x04], hb := [0x03] } := rfl
/-- H3: the third byte completes an event. -/
theorem test_h3 : exec .hostPop { power with ch := [0x00, 0x04], hb := [0x03, 0x01] } =
    .next { power with ch := [0x04], log := [⟨0x03, 0x01, 0x00⟩] } := rfl
/-- H5: no validation of tag or address. -/
theorem test_h5 : exec (.event 0x7F 0x00 0x09) { power with ch := [0x7F, 0x00, 0x09] } =
    .next { power with log := [⟨0x7F, 0x00, 0x09⟩] } := rfl
/-- H6: a host that holds `[03 00]` regroups the rest silently wrong. -/
theorem test_h6 : exec (.event 0x04 0x01 0xAA) { power with ch := [0x04, 0x01, 0xAA], hb := [0x03, 0x00] } =
    .next { power with hb := [0x01, 0xAA], log := [⟨0x03, 0x00, 0x04⟩] } := rfl
theorem test_reserved_nop : exec (.nop 0x05 0x80) { power with ch := [0x00, 0x05, 0x80] } =
    .next { power with log := [⟨0x00, 0x05, 0x80⟩] } := rfl
theorem test_reserved_read : exec (.read 0xFF 0x01) { power with ch := [0x01, 0xFF, 0x01] } =
    .next { power with log := [⟨0x01, 0xFF, 0x01⟩] } := rfl
theorem test_reserved_write : exec (.write 0x00 0x00) { power with ch := [0x02, 0x00, 0x00, 0x03] } =
    .next { power with ch := [0x03], log := [⟨0x02, 0x00, 0x00⟩] } := rfl

/-! A placed word is what the next step fetches. -/

theorem test_place_step : (power.withFetchWord 8 0x2D).fetch = .ok .readExec ∧ (power.withFetchWord 8 0x46).fetch = .ok .cleanupWaitWr :=
  ⟨rfl, rfl⟩
theorem test_place_full : (power.withFetchWord 7 0x06).fetch = .ok .idleStallWr ∧ (v5.withFetchWord 7 0x0C).fetch = .ok .idleRd :=
  ⟨rfl, rfl⟩
theorem test_place_busctl : State.stepVector (power.withFetchWord 3 0b110) = 0b0001110 := rfl
theorem test_place_frame : (power.withFetchWord 24 0x0307AA).fetch = .ok (.readTrace 0x07 0xAA) ∧
    (power.withFetchWord 24 0x0407AA).fetch = .ok (.writeTrace 0x07 0xAA) ∧
    (power.withFetchWord 24 0x01FFAA).fetch = .ok (.read 0xFF 0xAA) ∧
    (power.withFetchWord 24 0x05FFAA).fetch = .ok (.event 0x05 0xFF 0xAA) := ⟨rfl, rfl, rfl, rfl⟩

/-! ### Witnesses: the hypotheses of the obligations can be met -/

/-- Lines with the read-strobe low, with the write-strobe low, with both low, and released. -/
def rdLow : Lines := pin true false true 5 0x3C
def wrLow : Lines := pin true true false 7 0xFF
def bothLow : Lines := pin true false false 4 0x99

theorem witness_SampleLoadsEveryLineEveryTick :
    v1.sync = [] ∧ (v1.withInput (.tick wrLow)).sync = [] ∧ (v1.withInput (.tick wrLow)).nextInput = .tick wrLow := by decide
theorem witness_SampleShiftsTheChain :
    State.sync { v1 with sync := [rdLow] } = rdLow :: [] ∧ State.sync { v1 with sync := [rdLow, wrLow] } = rdLow :: [wrLow] := by
  decide
theorem witness_IdleStartsACycle :
    (v1.ph = .idle ∧ v1.ready = true ∧ v1.smp.cs = true ∧ v1.smp.rdN = false) ∧
    (v2.ph = .idle ∧ v2.ready = true ∧ v2.smp.cs = true ∧ v2.smp.rdN = true ∧ v2.smp.wrN = false) := by decide
theorem witness_IdleHoldReleasesTheDriver :
    (v3.ph = .idle ∧ v3.smp.cs = false) ∧ (v4.ph = .idle ∧ v4.smp.cs = true ∧ v4.smp.rdN = true ∧ v4.smp.wrN = true) := by
  decide
theorem witness_IdleStallsOnAFullChannel :
    (v5.ph = .idle ∧ v5.ready = false ∧ v5.smp.cs = true ∧ v5.smp.rdN = false) ∧
    (v5w.ph = .idle ∧ v5w.ready = false ∧ v5w.smp.cs = true ∧ v5w.smp.rdN = true ∧ v5w.smp.wrN = false) := by decide
theorem witness_PrepareReadPushesTheAddress :
    (v6.ph = .prepare ∧ v6.ready = true ∧ v6.smp.rdN = false) ∧
    State.ready { v6 with chDepth := 2 } = true ∧ State.ready { v6 with chDepth := 1 } = false := by decide
theorem witness_PrepareWritePushesTheAddress :
    v7.ph = .prepare ∧ v7.ready = true ∧ v7.smp.rdN = true ∧ v7.smp.wrN = false := by decide
theorem witness_PrepareWaitsAndStalls :
    (v8.ph = .prepare ∧ v8.smp.rdN = true ∧ v8.smp.wrN = true) ∧
    (p3b.ph = .prepare ∧ p3b.ready = false ∧ p3b.smp.rdN = false) ∧
    (v9.ph = .prepare ∧ v9.ready = false ∧ v9.smp.rdN = true ∧ v9.smp.wrN = false) := by decide
theorem witness_ReadDrivesAndPushesTheEntry : v10.ph = .read ∧ v10.ready = true := by decide
theorem witness_WriteStoresAndPushesTheData : v12.ph = .write ∧ v12.ready = true := by decide
theorem witness_ReadAndWriteStall :
    (v11.ready = false ∧ v11.ph = .read) ∧ (v13.ready = false ∧ v13.ph = .write) := by decide
theorem witness_CleanupWaitsForRelease :
    (v14.ph = .cleanup ∧ v14.smp.rdN = false) ∧ (v15.ph = .cleanup ∧ v15.smp.rdN = true ∧ v15.smp.wrN = false) := by decide
/-- The three clauses: both strobes at 1, a tick that returns to IDLE, and ticks that do not. -/
theorem witness_CleanupReturnsToIdle :
    (v16.ph = .cleanup ∧ v16.smp.rdN = true ∧ v16.smp.wrN = true) ∧
    (v16.withInput (.tick wrLow)).nextInput = .tick wrLow ∧
    (∃ t, ticked v14 wrLow = .next t ∧ v14.ph = .cleanup ∧ t.ph = .cleanup) ∧
    ∃ t, ticked v15 wrLow = .next t ∧ v15.ph = .cleanup ∧ t.ph = .cleanup :=
  ⟨by decide, rfl, ⟨_, rfl, rfl, rfl⟩, _, rfl, rfl, rfl⟩

theorem witness_StepRunsTheFetchedInstruction_tick :
    (v3.withInput (.tick rdLow)).fetch = .ok .idleHoldNsel ∧ (v3.withInput (.tick rdLow)).nextInput = .tick rdLow ∧
    exec .idleHoldNsel (v3.withInput (.tick rdLow)).accept =
      .next { v3 with oe := false, pins := rdLow, moves := 1 } := ⟨rfl, rfl, rfl⟩
theorem witness_StepRunsTheFetchedInstruction_host :
    (v4.withInput .hostPop).fetch = .ok .hostPop ∧ (∀ p, (v4.withInput .hostPop).nextInput ≠ .tick p) ∧
    exec .hostPop (v4.withInput .hostPop).accept = .next { v4 with ch := [], hb := [0xAA], moves := 1 } :=
  ⟨rfl, nofun, rfl⟩

/-- A state for each of the 18 rows of STEP with the operation it performs. -/
def everyRow : List (State × Instr) :=
  [(v1, .idleRd), (v2, .idleWr), (v3, .idleHoldNsel), (v4, .idleHoldRel), (v5, .idleStallRd), (v5w, .idleStallWr),
   (v6, .prepareRd), (v7, .prepareWr), (v8, .prepareWait), (p3b, .prepareStallRd), (v9, .prepareStallWr),
   (v10, .readExec), (v11, .readStall), (v12, .writeExec), (v13, .writeStall), (v14, .cleanupWaitRd),
   (v15, .cleanupWaitWr), (v16, .cleanupDone)]

/-- For PhaseTransitionTable, TickConfinesItsEffects, TableAndPseudocodeAgree, WriteEnableExactlyWhenQueued, WritePortContract and
PortArbiter: each row's operation is the one of a tick. -/
theorem witness_every_row :
    everyRow.map (fun q => (q.1.withInput (.tick wrLow)).stepOp.toOption) = everyRow.map (fun q => some q.2) ∧
    ∀ q ∈ everyRow, (q.1.withInput (.tick wrLow)).nextInput = .tick wrLow := by decide
/-- The same for the ports: both enables are reached. -/
theorem witness_PortArbiter : v10.rfRdEn = true ∧ v12.rfWrEn = true ∧ v1.rfRdEn = false ∧ v1.rfWrEn = false := by decide
theorem witness_every_row_covers_stepOperations : everyRow.map Prod.snd = stepOperations := by decide

theorem witness_ReadWinsTheTie :
    (∀ d ∈ [0, 1], State.ph { v1 with smp := bothLow, chDepth := d } = .idle ∧
      State.ready { v1 with smp := bothLow, chDepth := d } = (d == 1) ∧ bothLow.cs = true ∧ bothLow.rdN = false ∧
      bothLow.wrN = false) ∧ (State.ph { v6 with smp := bothLow } = .prepare) := by decide
theorem witness_ChipSelectCountsInIdleOnly : v6.ph ≠ .idle ∧ v3.ph = .idle ∧ v3.smp.cs = false := by decide
theorem witness_BusctlTable :
    (v1.ready = true ∧ v1.ph = .idle) ∧ (v6.ready = true ∧ v6.ph = .prepare) ∧ (v10.ready = true ∧ v10.ph = .read) ∧
    (v12.ready = true ∧ v12.ph = .write) ∧ (v16.ready = true ∧ v16.ph = .cleanup) := by decide

/-- Addresses 0 and 7, one stage and two, room for exactly a frame. -/
theorem witness_ReadCycleTotalEffect :
    (0x00 : Byte).toNat < 8 ∧ (0x07 : Byte).toNat < 8 ∧ v4.resting = true ∧ v4.room 3 ∧
    State.resting { v4 with sync := [Lines.released] } = true ∧ State.room { v4 with sync := [Lines.released] } 3 := by
  refine ⟨?_, ?_, ?_, ?_, ?_, ?_⟩ <;> (try unfold State.room) <;> decide
/-- For WriteCycleTotalEffect and RoundTripLaw as well. -/
theorem witness_RoundTripLaw :
    (0x07 : Byte).toNat < 8 ∧ State.resting { v4 with chDepth := 7 } = true ∧
    State.room { v4 with chDepth := 7 } (3 * (([] : List Instr).length + 2)) := by
  refine ⟨?_, ?_, ?_⟩ <;> (try unfold State.room) <;> decide

/-- What may stand between the write and the read. -/
def between : List Instr := [.writeTrace 0x06 0x55, .readTrace 0x07 0x00, .hostPop, .event 0x04 0x07 0xAA]
theorem witness_RoundTripLaw_between :
    (∀ i ∈ between, writesOnlyElsewhere 0x07 i = true) ∧ State.resting { v4 with chDepth := 19 } = true ∧
    State.room { v4 with chDepth := 19 } (3 * (between.length + 2)) ∧ writesOnlyElsewhere 0x07 (.writeTrace 0x07 0x55) = false := by
  refine ⟨?_, ?_, ?_, ?_⟩ <;> (try unfold State.room) <;> decide

/-- V12 with a bus master that releases and then reads the same entry, and a host that pops once meanwhile. -/
def reread : List Input := [.tick (pin true false true 7 0x00), .hostPop, .tick (pin true false true 7 0x00),
  .tick (pin true false true 7 0x00)]
theorem witness_ReadYieldsTheLastWrite :
    v12.ph = .write ∧ v12.ready = true ∧ (∀ m ∈ reread, m = .hostPop ∨ ∃ q, m = .tick q) ∧
    (∀ k q w, reread[k]? = some (.tick q) → v12.takeMoves (.tick Lines.released :: reread.take k) = .next w →
      ¬(w.rfWrEn = true ∧ w.addrLatch = v12.addrLatch)) ∧
    ∃ t, v12.takeMoves (.tick Lines.released :: reread) = .next t ∧ t.ph = .read ∧ t.addrLatch = v12.addrLatch := by
  refine ⟨by decide, by decide, by simp [reread], ?_, _, rfl, rfl, rfl⟩
  intro k q w hk hw
  match k with
  | 0 | 1 | 2 | 3 => cases hw; decide
  | n + 4 => simp [reread] at hk

theorem witness_WriteCycleTotalEffect : v3.resting = true ∧ v3.room 3 ∧ v3.oe = true := by
  refine ⟨?_, ?_, ?_⟩ <;> (try unfold State.room) <;> decide
/-- With no wait and with two. -/
theorem witness_ReadCycleWithAnyWaits :
    v1.sync = [] ∧ v1.ph = .idle ∧ v1.smp.cs = true ∧ v1.smp.rdN = false ∧ v1.room 3 ∧ rdLow.rdN = false ∧
    (∀ w ∈ ([] : List Lines), w.strobesHigh = false) ∧ (∀ w ∈ [rdLow, wrLow], w.strobesHigh = false) ∧
    Lines.released.strobesHigh = true := by
  refine ⟨?_, ?_, ?_, ?_, ?_, ?_, ?_, ?_, ?_⟩ <;> (try unfold State.room) <;> decide
theorem witness_WriteCycleWithAnyWaits :
    State.sync { v4 with smp := wrLow } = [] ∧ State.ph { v4 with smp := wrLow } = .idle ∧ wrLow.cs = true ∧ wrLow.rdN = true ∧
    wrLow.wrN = false ∧ State.room { v4 with smp := wrLow } 3 ∧ (∀ w ∈ [bothLow], w.strobesHigh = false) ∧
    Lines.released.strobesHigh = true := by
  refine ⟨?_, ?_, ?_, ?_, ?_, ?_, ?_, ?_⟩ <;> (try unfold State.room) <;> decide
/-- All four rows: IDLE sees a read (V1's state) or a write, PREPARE sees a read, a write, or both strobes low. -/
theorem witness_MixedFrames :
    (v1.sync = [] ∧ v1.ph = .idle ∧ v1.smp.cs = true ∧ v1.smp.strobesHigh = false ∧ v1.smp.rdN = false ∧ v1.room 3) ∧
    (∀ p ∈ [rdLow, wrLow, bothLow], p.strobesHigh = false) ∧ rdLow.rdN = false ∧ wrLow.rdN = true ∧ bothLow.rdN = false := by
  refine ⟨⟨?_, ?_, ?_, ?_, ?_, ?_⟩, ?_, ?_, ?_, ?_⟩ <;> (try unfold State.room) <;> decide

/-- IDLE sees a write (tag 0x04), entry 7 holds 9D. -/
def idleWrite : State := { v4 with smp := wrLow, rf := [(7, 0x9D)] }
theorem witness_MixedFrames_write :
    idleWrite.sync = [] ∧ idleWrite.ph = .idle ∧ idleWrite.smp.cs = true ∧ idleWrite.smp.strobesHigh = false ∧
    idleWrite.smp.rdN = true ∧ idleWrite.room 3 := by
  refine ⟨?_, ?_, ?_, ?_, ?_, ?_⟩ <;> (try unfold State.room) <;> decide
/-- R99, row 3 (K2): tag 0x04, the entry reported and driven, not written. -/
theorem test_mixed_write_then_read :
    (idleWrite.ticks [rdLow, wrLow, wrLow]).ch = [0xAA, 0x04, 0x07, 0x9D] ∧
    (idleWrite.ticks [rdLow, wrLow, wrLow]).dataLinesDriven = some 0x9D ∧
    (idleWrite.ticks [rdLow, wrLow, wrLow]).rf = [(7, 0x9D)] := ⟨rfl, rfl, rfl⟩
/-- R99, row 4: tag 0x04, the data written, nothing driven. -/
theorem test_mixed_write_then_write :
    (idleWrite.ticks [wrLow, wrLow, wrLow]).ch = [0xAA, 0x04, 0x07, 0xFF] ∧
    (idleWrite.ticks [wrLow, wrLow, wrLow]).dataLinesDriven = none ∧
    (idleWrite.ticks [wrLow, wrLow, wrLow]).rf = [(7, 0xFF)] := ⟨rfl, rfl, rfl⟩
theorem witness_StalledCycleIsLost :
    State.resting { v4 with chDepth := 1 } = true ∧ State.ready { v4 with chDepth := 1 } = false := by decide
theorem witness_UnreleasedStrobeHangs :
    State.ph { v14 with sync := [wrLow] } = .cleanup ∧ v14.smp.strobesHigh = false ∧ (∀ x ∈ [wrLow], x.strobesHigh = false) ∧
    (∀ p ∈ [rdLow, wrLow, bothLow], p.strobesHigh = false) := by decide
theorem witness_StallEndsOnlyByAPop :
    (v5.ready = false ∧ v5.ph = .idle) ∧ (v9.ready = false ∧ v9.ph = .prepare) ∧ (v11.ready = false ∧ v11.ph = .read) ∧
    (v13.ready = false ∧ v13.ph = .write) := by decide

theorem witness_HostPopTakesOneByte :
    power.ch = [] ∧ (v4.ch = 0xAA :: [] ∧ v4.hb.length < 2) ∧
    (State.ch { v4 with hb := [0x03, 0x01] } = 0xAA :: [] ∧ State.hb { v4 with hb := [0x03, 0x01] } = [0x03, 0x01]) := by
  decide
theorem witness_EventRegroupsThreeBytes :
    power.hb = [] ∧ State.hb { power with hb := [0x03] } = [0x03] ∧ State.hb { power with hb := [0x03, 0x00] } = [0x03, 0x00] := by
  decide
theorem witness_EventIsThreePops : State.ch { power with ch := [0x00, 0x05, 0x80, 0x03] } = 0x00 :: 0x05 :: 0x80 :: [0x03] := by
  decide
theorem witness_StepOperationsFrame :
    (Instr.idleRd ∈ stepOperations ∧ Instr.idleRd ≠ .writeExec) ∧ (Instr.cleanupDone ∈ stepOperations ∧ Instr.cleanupDone ≠ .writeExec) := by
  decide
theorem witness_BusctlAndSampleFrame : Instr.busctl7 = decodeBusctl 7 ∧ v12.ph = .write ∧ (2 : Addr) ≠ v12.addrLatch := by
  decide
theorem witness_WriteExecFrame : v12.rfAddr = 7 ∧ (2 : Addr) ≠ 7 ∧ v13.ready = false := by decide
theorem witness_DecodeOfEncode :
    (Instr.writeTrace 0x07 0xFF).wf = true ∧ encode (.writeTrace 0x07 0xFF) = some (.frame, 0x0407FF) := by decide
theorem witness_EncodeOfDecode :
    decode .busctl 7 = .ok .busctl7 ∧ decode .frame 0x0307FF = .ok (.readTrace 0x07 0xFF) ∧
    decode .event 0xFFFFFF = .ok (.event 0xFF 0xFF 0xFF) := ⟨rfl, rfl, rfl⟩
/-- The STEP clauses at the ends of their ranges: phase codes 0 and 4, 5 and 7, and the first number of 8 bits. -/
theorem witness_EncodeOfDecode_step :
    decode .step 0x00 = .ok .idleHoldNsel ∧ decode .step 0x4F = .ok .cleanupDone ∧ decode .step 0x50 = .error .reservedPhase ∧
    decode .step 0x7F = .error .reservedPhase ∧ decode .step 0x80 = .error .tooWide := ⟨rfl, rfl, rfl, rfl, rfl⟩

/-- V16's state with the entry it drives in the Register File: the driver is on and the stream holds one frame. -/
def afterRead : State := { v16 with rf := [(5, 0x9D)], inputs := [.tick rdLow] }
theorem witness_StepKeepsTheInvariant : afterRead.Inv ∧ afterRead.oe = true ∧ ∃ t, step afterRead = .next t :=
  ⟨{ memory := by decide, depth := by decide, bounded := by decide, partialEvent := by decide, framed := by decide,
     driverOff := by decide, driven := by decide }, rfl, _, rfl⟩
theorem witness_StreamOnlyGrows :
    v4.hb.length ≤ 2 ∧ (State.hb { v4 with hb := [0x03, 0x01] }).length ≤ 2 ∧
    (v4.withInput (.tick rdLow)).nextInput = .tick rdLow ∧ (v4.withInput .hostEvent).nextInput = .hostEvent := by decide
theorem witness_InterruptLinesAreInert :
    State.noIrq { v1 with smp := { rdLow with irq := 1 } } = State.noIrq { v1 with smp := { rdLow with irq := 2 } } ∧
    Lines.noIrq { rdLow with irq := 0 } = Lines.noIrq { rdLow with irq := 3 } := by decide
theorem witness_DataNeverSteers :
    State.control { v10 with rf := [] } = v10.control ∧ Lines.noData { rdLow with d := 0x00 } = rdLow.noData := by decide

end Sys2Proof.Tests
end

/-! What a clock tick answers, from the selection table of R52: the selected operation is R80's case distinction, then SAMPLE. -/

namespace Sys2Proof.Machine

variable (s : State)

/-- The step vector of every state selects an operation, and it does what R80's case distinction says: in IDLE by R82 to R85, in
PREPARE by R86 to R89, in READ by R90 and R91, in WRITE by R92 and R93, in CLEANUP by R94 and R95. -/
theorem exec_selected : ∃ i, decodeStep s.stepVector = .ok i ∧
    exec i s = .next (s.cycleDecoder s.smp.cs s.smp.rdN s.smp.wrN) := by
  rw [State.stepVector]
  cases h : s.ph with
  | idle =>
    refine ⟨_, decodeStep_idle .., ?_⟩
    cases hr : s.ready <;> cases s.smp.cs <;> cases s.smp.rdN <;> cases s.smp.wrN <;>
      simp [exec, execIdleRd, execIdleWr, execIdleHoldNsel, execIdleHoldRel, execIdleStallRd, execIdleStallWr,
        State.cycleDecoder, h, s.idleStart_full, hr]
  | prepare =>
    refine ⟨_, decodeStep_prepare .., ?_⟩
    cases hr : s.ready <;> cases s.smp.rdN <;> cases s.smp.wrN <;>
      simp [exec, execPrepareRd, execPrepareWr, execPrepareWait, execPrepareStallRd, execPrepareStallWr,
        State.cycleDecoder, h, s.prepareExit_full, hr]
  | read =>
    refine ⟨_, decodeStep_read .., ?_⟩
    cases hr : s.ready <;> simp [exec, execReadExec, execReadStall, State.cycleDecoder, h, s.readData_full, hr]
  | write =>
    refine ⟨_, decodeStep_write .., ?_⟩
    cases hr : s.ready <;> simp [exec, execWriteExec, execWriteStall, State.cycleDecoder, h, s.writeData_full, hr]
  | cleanup =>
    refine ⟨_, decodeStep_cleanup .., ?_⟩
    cases s.smp.rdN <;> cases s.smp.wrN <;>
      simp [exec, execCleanupWaitRd, execCleanupWaitWr, execCleanupDone, State.cycleDecoder, h]

@[simp] theorem State.accept_stepVector : s.accept.stepVector = s.stepVector := rfl

/-- A step that takes a tick is `Tick` (R80) on that tick's pins; what is pending goes on by one move. -/
theorem step_tick {p : Lines} (h : s.nextInput = .tick p) :
    step s = .next (State.tick { s with inputs := s.inputs.tail, moves := s.moves + 1 } p) := by
  obtain ⟨i, hi, he⟩ := exec_selected s.accept
  rw [step_of_fetch s ((s.fetch_tick h).trans hi) he, h, s.accept_tick h]
  simp only [Input.isTick, State.finish_tick, State.tick, State.cycleDecoder_pins]

/-- R71: with one stage SAMPLE loads the sampler registers from the pins and changes nothing else. -/
theorem State.sampleLines_of_sync_nil (h : s.sync = []) : s.sampleLines = { s with smp := s.pins } := by
  simp [State.sampleLines, h]

/-- R71: with one stage a tick leaves the sampler registers at its pins, whatever the Cycle Decoder did. -/
theorem State.tick_of_sync_nil (h : s.sync = []) (p : Lines) : (s.tick p).smp = p ∧ (s.tick p).sync = [] := by
  simp [State.tick_eq, h]

/-- Settles O3: SAMPLE by its equation with no earlier stage; a step on a tick is `Tick`, whose last act is SAMPLE in every phase. -/
theorem sampleLoadsEveryLineEveryTick : Obligations.SampleLoadsEveryLineEveryTick := by
  intro s hs
  refine ⟨congrArg Host.Outcome.next (s.sampleLines_of_sync_nil hs), fun p hp =>
    ⟨_, step_tick s hp, State.tick_of_sync_nil _ ?_ p⟩⟩
  exact hs

end Sys2Proof.Machine

/-! The rows of the Cycle Decoder phase by phase: the operation each phase's table selects, the wires that go with a selected
operation (10_state.md R18, 42_regfile_ports.md R111, R112), and the statements of 41_cycle_decoder.md sections 2 to 6. -/

namespace Sys2Proof.Machine

variable {s : State} {i : Instr}

/-! ### The operation selected in each phase (R52) -/

theorem State.stepOp_idle (h : s.ph = .idle) : s.stepOp = .ok
    (if s.smp.cs && !s.smp.rdN then (if s.ready then .idleRd else .idleStallRd)
     else if s.smp.cs && !s.smp.wrN then (if s.ready then .idleWr else .idleStallWr)
     else if s.smp.cs then .idleHoldRel else .idleHoldNsel) := by
  rw [State.stepOp, State.stepVector, h, decodeStep_idle]

theorem State.stepOp_prepare (h : s.ph = .prepare) : s.stepOp = .ok
    (if !s.smp.rdN then (if s.ready then .prepareRd else .prepareStallRd)
     else if !s.smp.wrN then (if s.ready then .prepareWr else .prepareStallWr) else .prepareWait) := by
  rw [State.stepOp, State.stepVector, h, decodeStep_prepare]

theorem State.stepOp_read (h : s.ph = .read) : s.stepOp = .ok (if s.ready then .readExec else .readStall) := by
  rw [State.stepOp, State.stepVector, h, decodeStep_read]

theorem State.stepOp_write (h : s.ph = .write) : s.stepOp = .ok (if s.ready then .writeExec else .writeStall) := by
  rw [State.stepOp, State.stepVector, h, decodeStep_write]

theorem State.stepOp_cleanup (h : s.ph = .cleanup) : s.stepOp = .ok
    (if !s.smp.rdN then .cleanupWaitRd else if !s.smp.wrN then .cleanupWaitWr else .cleanupDone) := by
  rw [State.stepOp, State.stepVector, h, decodeStep_cleanup]

/-! ### The wires of a selected operation -/

theorem State.duePush_of_stepOp (h : s.stepOp = .ok i) : s.duePush = s.pushedBy i := by
  simp [State.duePush, h]

/-- An operation that pushes nothing leaves `ch_we` at 0 (R18). -/
theorem State.chWe_of_no_push (h : s.stepOp = .ok i) (hb : s.pushedBy i = none) : s.chWe = false := by
  simp [State.chWe, State.duePush_of_stepOp h, hb]

/-- An operation that pushes a byte raises `ch_we` with the byte on `ch_din` (R18). -/
theorem State.wires_of_push {b : Byte} (h : s.stepOp = .ok i) (hb : s.pushedBy i = some b) :
    s.chWe = true ∧ s.chDin = b := by
  simp [State.chWe, State.chDin, State.duePush_of_stepOp h, hb]

theorem State.rfRdEn_iff : s.rfRdEn = true ↔ s.stepOp = .ok .readExec := by
  unfold State.rfRdEn
  split <;> simp_all

theorem State.rfWrEn_iff : s.rfWrEn = true ↔ s.stepOp = .ok .writeExec := by
  unfold State.rfWrEn
  split <;> simp_all

/-- READ.EXEC raises the read port's enable only (R114). -/
theorem State.ports_of_readExec (h : s.stepOp = .ok .readExec) : s.rfRdEn = true ∧ s.rfWrEn = false :=
  ⟨State.rfRdEn_iff.2 h, Bool.eq_false_iff.2 fun hw => by simp [State.rfWrEn_iff, h] at hw⟩

/-- WRITE.EXEC raises the write port's enable only (R114). -/
theorem State.ports_of_writeExec (h : s.stepOp = .ok .writeExec) : s.rfWrEn = true ∧ s.rfRdEn = false :=
  ⟨State.rfWrEn_iff.2 h, Bool.eq_false_iff.2 fun hr => by simp [State.rfRdEn_iff, h] at hr⟩

/-! ### IDLE -/

/-- Settles O7: the table selects the hold row by chip-select and the strobes alone, and the row pushes nothing and only turns the
driver off. -/
theorem idleHoldReleasesTheDriver : Obligations.IdleHoldReleasesTheDriver := by
  intro s hph
  refine ⟨fun hcs => ?_, fun hcs hrd hwr => ?_⟩
  · have hop : s.stepOp = .ok .idleHoldNsel := by simp [State.stepOp_idle hph, hcs]
    exact ⟨hop, State.chWe_of_no_push hop rfl, rfl⟩
  · have hop : s.stepOp = .ok .idleHoldRel := by simp [State.stepOp_idle hph, hcs, hrd, hwr]
    exact ⟨hop, State.chWe_of_no_push hop rfl, rfl⟩

/-! ### PREPARE -/

/-- Settles O9: with room the read-strobe at 0 selects PREPARE.RD before any other line is looked at, which leaves PREPARE for READ
with the address byte pushed. -/
theorem prepareReadPushesTheAddress : Obligations.PrepareReadPushesTheAddress := by
  intro s hph hready hrd
  have hop : s.stepOp = .ok .prepareRd := by simp [State.stepOp_prepare hph, hready, hrd]
  obtain ⟨hwe, hdin⟩ := State.wires_of_push hop rfl
  exact ⟨hop, hwe, hdin, congrArg Host.Outcome.next (s.prepareExit_ready .read hready)⟩

/-- Settles O10: with room and the read-strobe released the write-strobe at 0 selects PREPARE.WR, which leaves PREPARE for WRITE
with the address byte pushed. -/
theorem prepareWritePushesTheAddress : Obligations.PrepareWritePushesTheAddress := by
  intro s hph hready hrd hwr
  have hop : s.stepOp = .ok .prepareWr := by simp [State.stepOp_prepare hph, hready, hrd, hwr]
  obtain ⟨hwe, hdin⟩ := State.wires_of_push hop rfl
  exact ⟨hop, hwe, hdin, congrArg Host.Outcome.next (s.prepareExit_ready .write hready)⟩

/-! ### READ and WRITE -/

/-- Settles O12: with room READ selects READ.EXEC whatever the lines, whose effect is that of the read port's value driven and
pushed. -/
theorem readDrivesAndPushesTheEntry : Obligations.ReadDrivesAndPushesTheEntry := by
  intro s hph hready
  have hop : s.stepOp = .ok .readExec := by simp [State.stepOp_read hph, hready]
  obtain ⟨hwe, hdin⟩ := State.wires_of_push hop rfl
  obtain ⟨hrdEn, hwrEn⟩ := State.ports_of_readExec hop
  exact ⟨hop, hwe, hdin, hrdEn, hwrEn, congrArg Host.Outcome.next (s.readData_ready hready)⟩

/-- Settles O13: with room WRITE selects WRITE.EXEC whatever the lines; the entries afterwards are those of a read after a write
(R113). -/
theorem writeStoresAndPushesTheData : Obligations.WriteStoresAndPushesTheData := by
  intro s hph hready
  have hop : s.stepOp = .ok .writeExec := by simp [State.stepOp_write hph, hready]
  obtain ⟨hwe, hdin⟩ := State.wires_of_push hop rfl
  obtain ⟨hwrEn, hrdEn⟩ := State.ports_of_writeExec hop
  exact ⟨hop, hwe, hdin, hwrEn, hrdEn, _, congrArg Host.Outcome.next (s.writeData_ready hready), rfl,
    fun b => s.rf.read_write s.addrLatch b s.smp.d, rfl, rfl⟩

/-! ### CLEANUP -/

/-- Settles O15: a strobe at 0 selects its CLEANUP.WAIT row, which pushes nothing and answers the state it was given. -/
theorem cleanupWaitsForRelease : Obligations.CleanupWaitsForRelease := by
  intro s hph
  refine ⟨fun hrd => ?_, fun hrd hwr => ?_⟩
  · have hop : s.stepOp = .ok .cleanupWaitRd := by simp [State.stepOp_cleanup hph, hrd]
    exact ⟨hop, State.chWe_of_no_push hop rfl, rfl⟩
  · have hop : s.stepOp = .ok .cleanupWaitWr := by simp [State.stepOp_cleanup hph, hrd, hwr]
    exact ⟨hop, State.chWe_of_no_push hop rfl, rfl⟩

/-- A tick from CLEANUP stays there unless both sampled strobes are at 1 (R94, R95). -/
theorem State.tick_ph_of_cleanup (h : s.ph = .cleanup) (p : Lines) :
    (s.tick p).ph = if s.smp.rdN && s.smp.wrN then .idle else .cleanup := by
  simp only [State.tick_eq, State.cycleDecoder, h]
  split
  · rfl
  · exact h

/-- Settles O16: both strobes at 1 select CLEANUP.DONE; a step on a tick is `Tick`, which leaves CLEANUP with both strobes at 1
only. -/
theorem cleanupReturnsToIdle : Obligations.CleanupReturnsToIdle := by
  intro s hph
  refine ⟨fun hrd hwr => ?_, fun p hp => ⟨_, step_tick s hp, ?_⟩⟩
  · have hop : s.stepOp = .ok .cleanupDone := by simp [State.stepOp_cleanup hph, hrd, hwr]
    exact ⟨hop, State.chWe_of_no_push hop rfl, rfl⟩
  · rw [State.tick_ph_of_cleanup (by exact hph)]
    cases s.smp.rdN <;> cases s.smp.wrN <;> simp

end Sys2Proof.Machine


/-! The write port (42_regfile_ports.md R112): its enable by phase and room, and the Register File after a tick by its enable. -/

namespace Sys2Proof.Machine

variable (s : State)

/-- WRITE.EXEC is selected exactly in WRITE with room, whatever the sampled lines (R52, R92). -/
theorem State.stepOp_eq_writeExec_iff : s.stepOp = .ok .writeExec ↔ s.ph = .write ∧ s.ready = true := by
  cases hph : s.ph with
  | idle => rw [State.stepOp_idle hph]; split_ifs <;> simp
  | prepare => rw [State.stepOp_prepare hph]; split_ifs <;> simp
  | read => rw [State.stepOp_read hph]; split_ifs <;> simp
  | write => cases hr : s.ready <;> simp [State.stepOp_write hph, hr]
  | cleanup => rw [State.stepOp_cleanup hph]; split_ifs <;> simp

theorem State.rfWrEn_iff_ph_ready : s.rfWrEn = true ↔ s.ph = .write ∧ s.ready = true :=
  State.rfWrEn_iff.trans s.stepOp_eq_writeExec_iff

/-- With the enable at 1 the Cycle Decoder does R92's write, whatever the control lines. -/
theorem State.cycleDecoder_of_rfWrEn (h : s.rfWrEn = true) (cs rdN wrN : Bool) : s.cycleDecoder cs rdN wrN =
    { s with rf := s.rf.write s.addrLatch s.smp.d, ch := s.ch ++ [s.smp.d], ph := .cleanup } := by
  obtain ⟨hph, hready⟩ := s.rfWrEn_iff_ph_ready.1 h
  simp [State.cycleDecoder, hph, s.writeData_ready hready]

/-- The Cycle Decoder changes the Register File in WRITE with room only: of its outcomes one alone writes (R81, R112). -/
theorem State.cycleDecoder_rf_eq_or (cs rdN wrN : Bool) :
    (s.cycleDecoder cs rdN wrN).rf = s.rf ∨ s.ph = .write ∧ s.ready = true := by
  have houtcome := s.cycleDecoder_cases cs rdN wrN
  generalize s.cycleDecoder cs rdN wrN = t at houtcome ⊢
  rcases houtcome with h | h | h | h | h | h | h | h | h | h | h | h <;> simp [h]

/-- A tick with the write port enabled leaves WRITE for CLEANUP (R92). -/
theorem State.tick_ph_of_rfWrEn (h : s.rfWrEn = true) (p : Lines) : (s.tick p).ph = .cleanup := by
  rw [State.tick_eq, s.cycleDecoder_of_rfWrEn h]

/-- The Register File after a tick: written through the port at the latched address if the port is enabled, else as before
(R112). -/
theorem State.tick_rf (p : Lines) :
    (s.tick p).rf = if s.rfWrEn = true then s.rf.write s.addrLatch s.smp.d else s.rf := by
  rw [State.tick_eq]
  split
  case isTrue h => rw [s.cycleDecoder_of_rfWrEn h]
  case isFalse h => exact (s.cycleDecoder_rf_eq_or ..).resolve_right fun hw => h (s.rfWrEn_iff_ph_ready.2 hw)

/-- The entries after a tick: the one at the latched address is the sampled data if the port is enabled, the others, or all of
them, are as before (R112, R113). -/
theorem State.tick_read (p : Lines) (b : Addr) :
    (s.tick p).rf.read b = if s.rfWrEn = true ∧ b = s.addrLatch then s.smp.d else s.rf.read b := by
  rw [State.tick_rf]
  by_cases h : s.rfWrEn = true <;> simp [h]

/-- Settles O24: a step on a tick is `Tick`, in which the enable alone decides whether the entry at the latched address is
written; the enabled tick is WRITE's with room, which ends in CLEANUP. -/
theorem writePortContract : Obligations.WritePortContract := by
  intro s p hp
  exact ⟨rfl, rfl, State.rfWrEn_iff, _, step_tick s hp,
    fun h => ⟨(s.rfWrEn_iff_ph_ready.1 h).1, State.tick_ph_of_rfWrEn _ (by exact h) p⟩, State.tick_read _ p⟩

end Sys2Proof.Machine

/-! A tick without its surroundings: the Cycle Decoder's part reads of the sampler only the address and the data, and of the
pending moves nothing; what a selected operation says of the phase and of `ready`. -/

namespace Sys2Proof.Machine

variable {s : State} {i : Instr}

/-- The Cycle Decoder reads of the sampler the address and data lines alone, beside the control lines it is given, and of the
earlier stages and the pins nothing (R70, R73). -/
theorem State.cycleDecoder_sampler (s : State) (cs rdN wrN : Bool) {l : Lines} (ha : l.a = s.smp.a) (hd : l.d = s.smp.d)
    (stages : List Lines) (p : Lines) :
    State.cycleDecoder cs rdN wrN { s with smp := l, sync := stages, pins := p } =
      { s.cycleDecoder cs rdN wrN with smp := l, sync := stages, pins := p } := by
  cases h : s.ph <;> cases cs <;> cases rdN <;> cases wrN <;> by_cases hl : s.ch.length < s.chDepth <;>
    simp [State.cycleDecoder, h, hl, ha, hd, State.idleStart, State.prepareExit, State.readData, State.writeData,
      State.pushing, State.ready, State.driverOff, State.push, State.latch, State.goto, State.drive, State.rfWrite,
      State.rfRdData, State.rfWrData, State.rfAddr]

/-- What is pending passes through a tick. -/
theorem State.tick_pending (s : State) (inputs : List Input) (moves : Nat) (p : Lines) :
    State.tick { s with inputs := inputs, moves := moves } p = { s.tick p with inputs := inputs, moves := moves } := by
  rw [State.tick_eq, State.tick_eq]
  exact congrArg (fun t : State => { t with pins := p, smp := s.sync.getLastD p, sync := (p :: s.sync).dropLast })
    (s.cycleDecoder_pins s.pins inputs moves ..)

/-- A step that takes a tick is the tick, with its move used up. -/
theorem step_tick_used {p : Lines} (h : s.nextInput = .tick p) :
    step s = .next { s.tick p with inputs := s.inputs.tail, moves := s.moves + 1 } := by
  rw [step_tick s h, State.tick_pending]

/-! ### What a tick leaves alone -/

theorem State.tick_frame (s : State) (p : Lines) :
    { s.tick p with rf := s.rf, ph := s.ph, addrLatch := s.addrLatch, oe := s.oe, dout := s.dout, smp := s.smp,
                    sync := s.sync, ch := s.ch, pins := s.pins } = s := by
  have h := s.cycleDecoder_frame s.smp.cs s.smp.rdN s.smp.wrN
  rw [State.tick_eq]
  exact congrArg (fun t : State => { t with smp := s.smp, sync := s.sync, pins := s.pins }) h

section frame
variable (s : State) (p : Lines)
@[simp] theorem State.tick_hb : (s.tick p).hb = s.hb := (congrArg State.hb (s.tick_frame p) :)
@[simp] theorem State.tick_log : (s.tick p).log = s.log := (congrArg State.log (s.tick_frame p) :)
@[simp] theorem State.tick_chDepth : (s.tick p).chDepth = s.chDepth := (congrArg State.chDepth (s.tick_frame p) :)
@[simp] theorem State.tick_pins : (s.tick p).pins = p := by rw [State.tick_eq]
@[simp] theorem State.tick_smp : (s.tick p).smp = s.sync.getLastD p := by rw [State.tick_eq]
@[simp] theorem State.tick_sync : (s.tick p).sync = (p :: s.sync).dropLast := by rw [State.tick_eq]
end frame

/-! ### What a selected operation says -/

/-- A selected operation does the Cycle Decoder's part of the tick. -/
theorem exec_of_stepOp (h : s.stepOp = .ok i) :
    exec i s = .next (s.cycleDecoder s.smp.cs s.smp.rdN s.smp.wrN) := by
  obtain ⟨j, hj, he⟩ := exec_selected s
  obtain rfl : i = j := by simpa using h.symm.trans hj
  exact he

/-- In a tick a selected operation does what it answers, and the sampler takes the pins. -/
theorem State.tick_of_stepOp {t : State} (h : s.stepOp = .ok i) (he : exec i s = .next t) (p : Lines) :
    s.tick p = { t with pins := p, smp := s.sync.getLastD p, sync := (p :: s.sync).dropLast } := by
  obtain rfl : _ = t := by simpa using (exec_of_stepOp h).symm.trans he
  exact s.tick_eq p

/-- The phase whose table holds a STEP row (R52). -/
def rowPhase : Instr → Option Phase
  | .idleRd | .idleWr | .idleHoldNsel | .idleHoldRel | .idleStallRd | .idleStallWr => some .idle
  | .prepareRd | .prepareWr | .prepareWait | .prepareStallRd | .prepareStallWr => some .prepare
  | .readExec | .readStall => some .read
  | .writeExec | .writeStall => some .write
  | .cleanupWaitRd | .cleanupWaitWr | .cleanupDone => some .cleanup
  | _ => none

/-- The operation a state selects is of its phase, and pushes a byte only if the channel has room (R52). -/
theorem State.stepOp_spec (s : State) :
    ∃ i, s.stepOp = .ok i ∧ rowPhase i = some s.ph ∧ ((s.pushedBy i).isSome = true → s.ready = true) := by
  cases h : s.ph
  case' idle => refine ⟨_, State.stepOp_idle h, ?_⟩
  case' prepare => refine ⟨_, State.stepOp_prepare h, ?_⟩
  case' read => refine ⟨_, State.stepOp_read h, ?_⟩
  case' write => refine ⟨_, State.stepOp_write h, ?_⟩
  case' cleanup => refine ⟨_, State.stepOp_cleanup h, ?_⟩
  all_goals split_ifs <;> simp_all [rowPhase, State.pushedBy]

theorem State.ph_of_stepOp (h : s.stepOp = .ok i) : rowPhase i = some s.ph := by
  obtain ⟨j, hj, hphase, -⟩ := s.stepOp_spec
  obtain rfl : i = j := by simpa using h.symm.trans hj
  exact hphase

theorem State.ready_of_stepOp (h : s.stepOp = .ok i) (hpush : (s.pushedBy i).isSome = true) : s.ready = true := by
  obtain ⟨j, hj, -, hready⟩ := s.stepOp_spec
  obtain rfl : i = j := by simpa using h.symm.trans hj
  exact hready hpush

end Sys2Proof.Machine

/-! Encodings (30_encoding.md): the words of the instructions, which decode to them, and the words that decode, which are theirs;
the selection table, whose rows exclude each other. -/

namespace Sys2Proof.Machine

/-! ### Decoding of an encoding -/

/-! Each format's decoder on the numbers of its length. -/

theorem decode_busctl {w : Nat} (h : w < 2 ^ 3) : decode .busctl w = .ok (decodeBusctl (BitVec.ofNat 3 w)) :=
  if_neg (Nat.not_le.2 h)

theorem decode_step {w : Nat} (h : w < 2 ^ 7) : decode .step w = decodeStep (BitVec.ofNat 7 w) :=
  if_neg (Nat.not_le.2 h)

theorem decode_frame {w : Nat} (h : w < 2 ^ 24) :
    decode .frame w = decodeFrame (frameByte0 w) (frameByte1 w) (frameByte2 w) :=
  if_neg (Nat.not_le.2 h)

theorem decode_event {w : Nat} (h : w < 2 ^ 24) :
    decode .event w = .ok (.event (frameByte0 w) (frameByte1 w) (frameByte2 w)) :=
  if_neg (Nat.not_le.2 h)

theorem decode_frame_frameWord (tag addr data : Byte) :
    decode .frame (frameWord tag addr data) = decodeFrame tag addr data := by
  rw [decode_frame (frameWord_lt ..), frameByte0_frameWord, frameByte1_frameWord, frameByte2_frameWord]

theorem decode_event_frameWord (tag addr data : Byte) :
    decode .event (frameWord tag addr data) = .ok (.event tag addr data) := by
  rw [decode_event (frameWord_lt ..), frameByte0_frameWord, frameByte1_frameWord, frameByte2_frameWord]

/-- A row with no operand has a fixed word, the others have their operands in a frame's bytes (R51 to R53). -/
theorem decode_of_encode {i : Instr} {f : Format} {w : Nat} (hwf : i.wf = true) (h : encode i = some (f, w)) :
    decode f w = .ok i := by
  cases i
  case sample | hostPop => cases h
  case event tag addr data => cases h; exact decode_event_frameWord tag addr data
  case readTrace addr data =>
    cases h
    exact (decode_frame_frameWord ..).trans (if_pos hwf)
  case writeTrace addr data =>
    cases h
    exact (decode_frame_frameWord ..).trans (if_pos hwf)
  case nop | read | write => cases h; exact decode_frame_frameWord ..
  all_goals cases h; rfl

/-- Settles O47: by the kind of word; every constructor but SAMPLE and HostPop has an arm in the encoder. -/
theorem decodeOfEncode : Obligations.DecodeOfEncode := by
  intro i hwf
  refine ⟨fun f w => decode_of_encode hwf, fun hsample hpop => ?_⟩
  cases i
  case sample => exact absurd rfl hsample
  case hostPop => exact absurd rfl hpop
  all_goals rfl

/-! ### Encoding of a decoding -/

/-- A 24-bit number is the frame word of its three bytes (R33). -/
theorem frameWord_frameBytes {w : Nat} (h : w < 2 ^ 24) :
    frameWord (frameByte0 w) (frameByte1 w) (frameByte2 w) = w := by
  simp only [frameWord, frameByte0, frameByte1, frameByte2, BitVec.toNat_ofNat]
  omega

theorem decode_lt {f : Format} {w : Nat} {i : Instr} (h : decode f w = .ok i) : w < 2 ^ f.bits := by
  by_contra hw
  simp [decode, Nat.not_lt.1 hw] at h

theorem encode_decodeBusctl (v : BitVec 3) :
    (decodeBusctl v).wf = true ∧ encode (decodeBusctl v) = some (.busctl, v.toNat) := by
  revert v; decide

/-- A frame that decodes is a well-formed row's, whose word has the three bytes (R53, R58). -/
theorem encode_decodeFrame {tag addr data : Byte} {i : Instr} (h : decodeFrame tag addr data = .ok i) :
    i.wf = true ∧ encode i = some (.frame, frameWord tag addr data) := by
  unfold decodeFrame at h
  split_ifs at h with htag haddr htag haddr htag htag htag <;> cases h <;> subst htag
  · exact ⟨haddr, rfl⟩
  · exact ⟨haddr, rfl⟩
  all_goals exact ⟨rfl, rfl⟩

theorem encode_of_decode {f : Format} {w : Nat} {i : Instr} (hf : f ≠ .step) (h : decode f w = .ok i) :
    i.wf = true ∧ encode i = some (f, w) := by
  have hw := decode_lt h
  cases f with
  | step => exact absurd rfl hf
  | busctl =>
    obtain rfl : decodeBusctl (BitVec.ofNat 3 w) = i := by simpa using (decode_busctl hw).symm.trans h
    simpa [Nat.mod_eq_of_lt (show w < 8 from hw)] using encode_decodeBusctl (BitVec.ofNat 3 w)
  | frame => simpa [frameWord_frameBytes hw] using encode_decodeFrame ((decode_frame hw).symm.trans h)
  | event =>
    obtain rfl : _ = i := by simpa using (decode_event hw).symm.trans h
    exact ⟨rfl, by simp [encode, frameWord_frameBytes hw]⟩

/-! ### The selection table -/

/-- Two rows disagree on a bit that both fix. -/
theorem stepRows_disjoint :
    ∀ r ∈ stepRows, ∀ q ∈ stepRows, r.pattern &&& q.mask = q.pattern &&& r.mask → q = r := by
  decide

/-- A vector meets one row's mask and match at most (R52). -/
theorem stepRow_unique {v : BitVec 7} {r q : StepRow} (hr : r ∈ stepRows) (hq : q ∈ stepRows)
    (hvr : v &&& r.mask = r.pattern) (hvq : v &&& q.mask = q.pattern) : q = r := by
  apply stepRows_disjoint r hr q hq
  rw [← hvr, ← hvq, BitVec.and_assoc, BitVec.and_assoc, BitVec.and_comm r.mask]

/-- A vector that decodes meets the mask and match of one row, the one it decodes to. -/
theorem stepRow_of_decodeStep {v : BitVec 7} {i : Instr} (h : decodeStep v = .ok i) :
    ∃ r ∈ stepRows, v &&& r.mask = r.pattern ∧ decodeStep v = .ok r.instr ∧
      ∀ q ∈ stepRows, v &&& q.mask = q.pattern → q = r := by
  cases hfind : stepRows.find? (fun r => r.hit v) with
  | none => simp [decodeStep, hfind] at h
  | some r =>
    have hr := List.mem_of_find?_eq_some hfind
    have hit : v &&& r.mask = r.pattern := by simpa [StepRow.hit] using List.find?_some hfind
    exact ⟨r, hr, hit, by simp [decodeStep, hfind], fun q hq => stepRow_unique hr hq hit⟩

/-- Settles O20: a state's step vector decodes, and to the one row it meets. -/
theorem exactlyOneRowMatches : Obligations.ExactlyOneRowMatches := by
  intro s
  obtain ⟨i, hi, -⟩ := exec_selected s
  exact stepRow_of_decodeStep hi

/-- The decoder of STEP refuses exactly the phase codes above 4, as reserved (R60). -/
theorem decodeStep_by_phase_code (v : BitVec 7) :
    if v.toNat < 80 then ∃ r ∈ stepRows, decodeStep v = .ok r.instr else decodeStep v = .error .reservedPhase := by
  revert v; decide

/-- Settles O48: outside STEP by format; a STEP number of at most 7 bits by its phase code, its row being the only one it
meets. -/
theorem encodeOfDecode : Obligations.EncodeOfDecode := by
  refine ⟨fun f w i => encode_of_decode, fun w => ⟨fun hw => ?_, fun hlow hhigh => ?_, fun hw => ?_⟩⟩
  · have hcode := decodeStep_by_phase_code (BitVec.ofNat 7 w)
    rw [if_pos (by simp; omega)] at hcode
    obtain ⟨_, -, hi⟩ := hcode
    obtain ⟨r, hr, hit, hi, hunique⟩ := stepRow_of_decodeStep hi
    exact ⟨r, hr, (decode_step (by omega)).trans hi, hit, hunique⟩
  · have hcode := decodeStep_by_phase_code (BitVec.ofNat 7 w)
    rw [if_neg (by simp; omega)] at hcode
    exact (decode_step (by omega)).trans hcode
  · exact if_pos (show 2 ^ 7 ≤ w by omega)

/-- Settles O49: each word is decoded by evaluation. -/
theorem wordsOfTheSpecDecode : Obligations.WordsOfTheSpecDecode := by
  unfold Obligations.WordsOfTheSpecDecode
  decide

end Sys2Proof.Machine

/-! The host's side (44_host_decoder.md): what it does with one byte and with three, that a loop iteration is three
HostPop steps, and what the host leaves alone. -/

namespace Sys2Proof.Machine

variable {s : State}

/-! ### One byte -/

/-- The first and the second byte of an event are kept (R141). -/
theorem State.hostByte_keep (h : s.hb.length < 2) (b : Byte) : s.hostByte b = { s with hb := s.hb ++ [b] } := by
  rcases s.hostByte_cases b with ⟨tag, addr, rest, hhb, -⟩ | ⟨-, hkeep⟩
  · simp [hhb] at h
  · exact hkeep

/-- The third byte completes the event (R141). -/
theorem State.hostByte_complete {tag addr : Byte} {rest : List Byte} (h : s.hb = tag :: addr :: rest) (b : Byte) :
    s.hostByte b = { s with log := s.log ++ [⟨tag, addr, b⟩], hb := [] } := by
  simp [State.hostByte, h]

/-- What the host does with a byte it has read does not depend on the channel. -/
theorem State.hostByte_ch (s : State) (b : Byte) (ch : List Byte) :
    State.hostByte b { s with ch := ch } = { s.hostByte b with ch := ch } := by
  rcases s.hostByte_cases b with ⟨tag, addr, rest, hhb, h⟩ | ⟨hlen, h⟩ <;> rw [h]
  · exact State.hostByte_complete (s := { s with ch := ch }) hhb b
  · exact State.hostByte_keep (s := { s with ch := ch }) hlen b

theorem State.popByte_nil (h : s.ch = []) : s.popByte = s := by
  simp [State.popByte, h]

theorem State.popByte_cons {b : Byte} {rest : List Byte} (h : s.ch = b :: rest) :
    s.popByte = { s.hostByte b with ch := rest } := by
  simp [State.popByte, h, State.hostByte_ch]

/-- HostPop on a state whose channel has been set. -/
theorem State.popByte_queued (s : State) (b : Byte) (rest : List Byte) :
    State.popByte { s with ch := b :: rest } = { s.hostByte b with ch := rest } := by
  simp [State.popByte, State.hostByte_ch]

/-! ### Three bytes -/

theorem State.hostThree_eq (s : State) (b0 b1 b2 : Byte) :
    s.hostThree b0 b1 b2 = { ((s.hostByte b0).hostByte b1).hostByte b2 with ch := s.ch.drop 3 } := by
  simp [State.hostThree, State.hostByte_ch]

/-- A host that holds nothing reports the three bytes as they came (R142). -/
theorem State.hostThree_of_nil (h : s.hb = []) (b0 b1 b2 : Byte) :
    s.hostThree b0 b1 b2 = { s with ch := s.ch.drop 3, log := s.log ++ [⟨b0, b1, b2⟩] } := by
  simp [State.hostThree, State.hostByte, h]

/-- A host that holds one byte reports it with the first two and keeps the third (R144). -/
theorem State.hostThree_of_one {x : Byte} (h : s.hb = [x]) (b0 b1 b2 : Byte) :
    s.hostThree b0 b1 b2 = { s with ch := s.ch.drop 3, log := s.log ++ [⟨x, b0, b1⟩], hb := [b2] } := by
  simp [State.hostThree, State.hostByte, h]

/-- A host that holds two bytes reports them with the first and keeps the other two (R144). -/
theorem State.hostThree_of_two {x y : Byte} (h : s.hb = [x, y]) (b0 b1 b2 : Byte) :
    s.hostThree b0 b1 b2 = { s with ch := s.ch.drop 3, log := s.log ++ [⟨x, y, b0⟩], hb := [b1, b2] } := by
  simp [State.hostThree, State.hostByte, h]

/-- With three bytes queued HostPop three times is the host's three bytes. -/
theorem State.popByte_three {b0 b1 b2 : Byte} {rest : List Byte} (h : s.ch = b0 :: b1 :: b2 :: rest) :
    s.popByte.popByte.popByte = s.hostThree b0 b1 b2 := by
  rw [State.popByte_cons h, State.popByte_queued, State.popByte_queued, State.hostThree_eq, h]
  rfl

/-- With three bytes queued a loop iteration fetches the row of a reserved tag, or EVENT (R57, R142). -/
theorem State.fetchEvent_cases {b0 b1 b2 : Byte} {rest : List Byte} (h : s.ch = b0 :: b1 :: b2 :: rest) :
    (b0 = tagNop ∧ s.fetchEvent = .nop b1 b2) ∨ (b0 = tagRead ∧ s.fetchEvent = .read b1 b2) ∨
    (b0 = tagWrite ∧ s.fetchEvent = .write b1 b2) ∨ s.fetchEvent = .event b0 b1 b2 := by
  simp only [State.fetchEvent, h, decodeFrameBytes, decodeFrame, decodeEvent, tagNop, tagRead, tagWrite]
  split_ifs <;> simp_all

/-- It does with the three bytes what EVENT does, whatever the tag (R143). -/
theorem exec_fetchEvent_three {b0 b1 b2 : Byte} {rest : List Byte} (h : s.ch = b0 :: b1 :: b2 :: rest) :
    exec s.fetchEvent s = .next (s.hostThree b0 b1 b2) := by
  rcases State.fetchEvent_cases h with ⟨rfl, hi⟩ | ⟨rfl, hi⟩ | ⟨rfl, hi⟩ | hi <;> rw [hi] <;> rfl

/-- With fewer bytes a loop iteration is one HostPop (R141). -/
theorem State.fetchEvent_short (h : s.ch.length < 3) : s.fetchEvent = .hostPop := by
  rcases hch : s.ch with _ | ⟨b0, _ | ⟨b1, _ | ⟨b2, rest⟩⟩⟩
  case cons.cons.cons => simp [hch] at h; omega
  all_goals simp [State.fetchEvent, hch, decodeFrameBytes, decodeEvent]

/-- A loop iteration is one HostPop or three of them. -/
theorem exec_fetchEvent_cases (s : State) :
    exec s.fetchEvent s = .next s.popByte ∨ exec s.fetchEvent s = .next s.popByte.popByte.popByte := by
  by_cases h : s.ch.length < 3
  · rw [State.fetchEvent_short h]
    exact .inl rfl
  · obtain ⟨b0, b1, b2, rest, hch⟩ : ∃ b0 b1 b2 rest, s.ch = b0 :: b1 :: b2 :: rest := by
      match hch : s.ch with
      | b0 :: b1 :: b2 :: rest => exact ⟨b0, b1, b2, rest, rfl⟩
      | [] | [_] | [_, _] => simp [hch] at h
    rw [exec_fetchEvent_three hch, State.popByte_three hch]
    exact .inr rfl

/-! ### What the host leaves alone -/

theorem State.hostByte_eq_with (s : State) (b : Byte) : ∃ hb log, s.hostByte b = { s with hb := hb, log := log } := by
  rcases s.hostByte_cases b with ⟨_, _, _, -, h⟩ | ⟨-, h⟩ <;> exact ⟨_, _, h⟩

/-- HostPop takes at most the head off the channel and touches nothing else of the hardware. -/
theorem State.popByte_eq_with (s : State) :
    ∃ hb log, s.popByte = { s with ch := s.ch.drop 1, hb := hb, log := log } := by
  rcases hch : s.ch with _ | ⟨b, rest⟩
  · refine ⟨s.hb, s.log, (State.popByte_nil hch).trans ?_⟩
    exact congrArg (fun ch => { s with ch := ch }) hch
  · obtain ⟨hb, log, h⟩ := s.hostByte_eq_with b
    exact ⟨hb, log, (State.popByte_cons hch).trans (by rw [h]; rfl)⟩

/-- The host's three bytes likewise. -/
theorem State.hostThree_eq_with (s : State) (b0 b1 b2 : Byte) :
    ∃ hb log, s.hostThree b0 b1 b2 = { s with ch := s.ch.drop 3, hb := hb, log := log } := by
  obtain ⟨_, _, h0⟩ := s.hostByte_eq_with b0
  obtain ⟨_, _, h1⟩ := (s.hostByte b0).hostByte_eq_with b1
  obtain ⟨hb, log, h2⟩ := ((s.hostByte b0).hostByte b1).hostByte_eq_with b2
  exact ⟨hb, log, by rw [s.hostThree_eq, h2, h1, h0]⟩

/-! ### The statements -/

/-- Settles O39: by what the host holds, fewer than two bytes or two. -/
theorem hostPopTakesOneByte : Obligations.HostPopTakesOneByte := by
  intro s
  refine ⟨fun h => congrArg Host.Outcome.next (State.popByte_nil h), fun b rest h hlen => ?_,
    fun b rest tag addr h hhb => ?_⟩
  · exact congrArg Host.Outcome.next ((State.popByte_cons h).trans (by rw [State.hostByte_keep hlen]))
  · exact congrArg Host.Outcome.next ((State.popByte_cons h).trans (by rw [State.hostByte_complete hhb]))

/-- Settles O40: by the number of bytes held. -/
theorem eventRegroupsThreeBytes : Obligations.EventRegroupsThreeBytes := fun _ b0 b1 b2 =>
  ⟨fun h => congrArg Host.Outcome.next (State.hostThree_of_nil h b0 b1 b2),
   fun _ h => congrArg Host.Outcome.next (State.hostThree_of_one h b0 b1 b2),
   fun _ _ h => congrArg Host.Outcome.next (State.hostThree_of_two h b0 b1 b2)⟩

/-- Settles O41: the rows of the reserved tags are the host's three bytes, of which it holds none before. -/
theorem reservedTagsAreReportedAsIs : Obligations.ReservedTagsAreReportedAsIs := fun _ addr data h =>
  ⟨congrArg Host.Outcome.next (State.hostThree_of_nil h tagNop addr data),
   congrArg Host.Outcome.next (State.hostThree_of_nil h tagRead addr data),
   congrArg Host.Outcome.next (State.hostThree_of_nil h tagWrite addr data)⟩

/-- Settles O42: three pops, the fetched instruction and EVENT are all the host's three bytes. -/
theorem eventIsThreePops : Obligations.EventIsThreePops := by
  intro s b0 b1 b2 rest h
  obtain ⟨_, _, hthree⟩ := s.hostThree_eq_with b0 b1 b2
  refine ⟨_, _, _, rfl, rfl, rfl, ?_, ?_, ?_⟩ <;> rw [State.popByte_three h]
  · exact exec_fetchEvent_three h
  · rfl
  · rw [hthree, h]; rfl

/-- Settles O43: each of the host's rows is one byte taken off the channel, or three. -/
theorem hostLeavesTheHardwareAlone : Obligations.HostLeavesTheHardwareAlone := by
  intro s i b0 b1 b2 hi
  have hthree (tag : Byte) (hne : i ≠ .hostPop) (he : exec i s = .next (s.hostThree tag b1 b2)) :
      ∃ t, exec i s = .next t ∧ { t with ch := s.ch, hb := s.hb, log := s.log } = s ∧
        (∀ b : Addr, t.rf.read b = s.rf.read b) ∧ t.ch = s.ch.drop (if i = .hostPop then 1 else 3) := by
    obtain ⟨hb, log, h⟩ := s.hostThree_eq_with tag b1 b2
    exact ⟨_, he.trans (congrArg _ h), rfl, fun _ => rfl, by rw [if_neg hne]⟩
  rcases hi with rfl | rfl | rfl | rfl | rfl
  · obtain ⟨hb, log, h⟩ := s.popByte_eq_with
    exact ⟨_, congrArg Host.Outcome.next h, rfl, fun _ => rfl, rfl⟩
  · exact hthree b0 (by simp) rfl
  · exact hthree tagNop (by simp) rfl
  · exact hthree tagRead (by simp) rfl
  · exact hthree tagWrite (by simp) rfl

end Sys2Proof.Machine

/-! The rows of the selection table one by one: what each STEP row does on any state, what a tick that selects it does, and
the statements of 41_cycle_decoder.md sections 1 to 6 and of BUSCTL. -/

namespace Sys2Proof.Machine

variable {s t : State} {i : Instr}

/-! ### What each STEP row does -/

/-- The 18 rows do seven things: start a cycle, release the driver, leave PREPARE, read, write, return to IDLE, or hold. -/
theorem exec_stepOperation (hi : (rowPhase i).isSome = true) (s : State) :
    ((i = .idleRd ∨ i = .idleWr) ∧ ∃ tag, s.pushedBy i = some tag ∧ exec i s = .next (s.idleStart tag)) ∨
    ((i = .idleHoldNsel ∨ i = .idleHoldRel ∨ i = .idleStallRd ∨ i = .idleStallWr) ∧
      s.pushedBy i = none ∧ exec i s = .next s.driverOff) ∨
    ((i = .prepareRd ∨ i = .prepareWr) ∧
      s.pushedBy i = some (addrByte s.addrLatch) ∧ ∃ ph, exec i s = .next (s.prepareExit ph)) ∨
    (i = .readExec ∧ s.pushedBy i = some s.rfRdData ∧ exec i s = .next s.readData) ∨
    (i = .writeExec ∧ s.pushedBy i = some s.rfWrData ∧ exec i s = .next s.writeData) ∨
    (i = .cleanupDone ∧ s.pushedBy i = none ∧ exec i s = .next (s.goto .idle)) ∨
    (s.pushedBy i = none ∧ exec i s = .next s) := by
  cases i
  case idleRd | idleWr => exact .inl ⟨by simp, _, rfl, rfl⟩
  case idleHoldNsel | idleHoldRel | idleStallRd | idleStallWr => exact .inr (.inl ⟨by simp, rfl, rfl⟩)
  case prepareRd | prepareWr => exact .inr (.inr (.inl ⟨by simp, rfl, _, rfl⟩))
  case readExec => exact .inr (.inr (.inr (.inl ⟨rfl, rfl, rfl⟩)))
  case writeExec => exact .inr (.inr (.inr (.inr (.inl ⟨rfl, rfl, rfl⟩))))
  case cleanupDone => exact .inr (.inr (.inr (.inr (.inr (.inl ⟨rfl, rfl, rfl⟩)))))
  case prepareWait | prepareStallRd | prepareStallWr | readStall | writeStall | cleanupWaitRd | cleanupWaitWr =>
    exact .inr (.inr (.inr (.inr (.inr (.inr ⟨rfl, rfl⟩)))))
  all_goals cases hi

theorem rowPhase_of_stepOperation (hi : i ∈ stepOperations) : (rowPhase i).isSome = true := by
  revert i; decide

theorem pushedBy_isSome_iff (s : State) (i : Instr) : (s.pushedBy i).isSome = true ↔
    i = .idleRd ∨ i = .idleWr ∨ i = .prepareRd ∨ i = .prepareWr ∨ i = .readExec ∨ i = .writeExec := by
  cases i <;> simp [State.pushedBy]

/-! What the pushing operations append to the channel, with room and without. -/

section pushing
variable (s : State)

@[simp] theorem State.idleStart_ch (tag : Byte) :
    (s.idleStart tag).ch = s.ch ++ if s.ready then [tag] else [] := by
  cases h : s.ready <;> simp [s.idleStart_ready, s.idleStart_full, h]

@[simp] theorem State.idleStart_oe (tag : Byte) : (s.idleStart tag).oe = false := by
  cases h : s.ready <;> simp [s.idleStart_ready, s.idleStart_full, h]

@[simp] theorem State.prepareExit_ch (ph : Phase) :
    (s.prepareExit ph).ch = s.ch ++ if s.ready then [addrByte s.addrLatch] else [] := by
  cases h : s.ready <;> simp [s.prepareExit_ready, s.prepareExit_full, h]

@[simp] theorem State.readData_ch : s.readData.ch = s.ch ++ if s.ready then [s.rfRdData] else [] := by
  cases h : s.ready <;> simp [s.readData_ready, s.readData_full, h, State.rfRdData, State.rfAddr]

@[simp] theorem State.writeData_ch : s.writeData.ch = s.ch ++ if s.ready then [s.rfWrData] else [] := by
  cases h : s.ready <;> simp [s.writeData_ready, s.writeData_full, h, State.rfWrData]

end pushing

/-- What a row appends to the channel: its byte when there is room, nothing otherwise (R121, R123). -/
theorem ch_of_exec_stepOperation (hi : (rowPhase i).isSome = true) (he : exec i s = .next t) :
    t.ch = s.ch ++ if s.ready then (s.pushedBy i).toList else [] := by
  rcases exec_stepOperation hi s with ⟨-, _, hpush, h⟩ | ⟨-, hpush, h⟩ | ⟨-, hpush, _, h⟩ | ⟨-, hpush, h⟩ |
    ⟨-, hpush, h⟩ | ⟨-, hpush, h⟩ | ⟨hpush, h⟩ <;>
  · obtain rfl : _ = t := by simpa using h.symm.trans he
    simp [hpush]

/-! ### What a tick that selects a row does -/

/-- The channel after a tick: the byte that was due is behind it (R122). -/
theorem State.tick_ch (s : State) (p : Lines) : (s.tick p).ch = s.ch ++ s.duePush.toList := by
  obtain ⟨i, hop, hphase, hready⟩ := s.stepOp_spec
  have hch := ch_of_exec_stepOperation (by rw [hphase]; rfl) (exec_of_stepOp hop)
  rw [State.tick_eq, State.duePush_of_stepOp hop]
  refine hch.trans ?_
  cases hpush : s.pushedBy i with
  | none => simp
  | some b => simp [hready (by rw [hpush]; rfl)]

/-- Phase and channel after a tick are those the selected row answers, and the phase before is the row's. -/
theorem State.tick_row {ph : Phase} (hop : s.stepOp = .ok i) (he : exec i s = .next t) (hph : rowPhase i = some ph)
    (p : Lines) : s.ph = ph ∧ (s.tick p).ph = t.ph ∧ (s.tick p).ch = t.ch := by
  rw [State.tick_of_stepOp hop he]
  exact ⟨Option.some.inj ((State.ph_of_stepOp hop).symm.trans hph), rfl, rfl⟩

/-- Likewise for a row that leaves phase and channel alone. -/
theorem State.tick_row_hold {ph : Phase} (hop : s.stepOp = .ok i) (he : exec i s = .next t) (hph : rowPhase i = some ph)
    (htph : t.ph = s.ph) (htch : t.ch = s.ch) (p : Lines) :
    s.ph = ph ∧ (s.tick p).ph = ph ∧ (s.tick p).ch = s.ch := by
  obtain ⟨hs, ht, hch⟩ := State.tick_row hop he hph p
  exact ⟨hs, ht.trans (htph.trans hs), hch.trans htch⟩

/-- Settles O18: a step on a tick is `Tick`, because the row each phase's table selects does that phase's case. -/
theorem tableAndPseudocodeAgree : Obligations.TableAndPseudocodeAgree := fun s _ hp => step_tick s hp

/-- Settles O17: a step runs what it fetches; in a tick that is what the step vector decodes to. -/
theorem stepRunsTheFetchedInstruction : Obligations.StepRunsTheFetchedInstruction := by
  intro s t i hf he
  have hstep := step_of_fetch s hf he
  refine ⟨fun ⟨p, hp⟩ => ⟨(s.fetch_tick hp).symm.trans hf, ?_⟩, fun hother => ?_⟩
  · rw [hstep, hp]; rfl
  · have htick : s.nextInput.isTick = false := by
      cases h : s.nextInput with
      | tick p => exact absurd h (hother p)
      | _ => rfl
    rw [hstep, htick, State.finish_other]

/-- Settles O21: row by row, each by what the row answers; a pushing row is selected with room only. -/
theorem phaseTransitionTable : Obligations.PhaseTransitionTable := by
  intro s p hp
  refine ⟨_, step_tick_used hp, fun h => ?_, fun h => ?_, ?_, ?_, fun h => ?_, fun h => ?_, fun h => ?_, ?_, fun h => ?_,
    fun h => ?_, fun h => ?_, fun h => ?_, ?_, fun h => ?_⟩
  · exact State.tick_row h (congrArg Host.Outcome.next (s.idleStart_ready _ (State.ready_of_stepOp h rfl))) rfl p
  · exact State.tick_row h (congrArg Host.Outcome.next (s.idleStart_ready _ (State.ready_of_stepOp h rfl))) rfl p
  · rintro (h | h) <;> exact State.tick_row_hold h rfl rfl rfl rfl p
  · rintro (h | h) <;> exact State.tick_row_hold h rfl rfl rfl rfl p
  · exact State.tick_row h (congrArg Host.Outcome.next (s.prepareExit_ready _ (State.ready_of_stepOp h rfl))) rfl p
  · exact State.tick_row h (congrArg Host.Outcome.next (s.prepareExit_ready _ (State.ready_of_stepOp h rfl))) rfl p
  · exact State.tick_row_hold h rfl rfl rfl rfl p
  · rintro (h | h) <;> exact State.tick_row_hold h rfl rfl rfl rfl p
  · exact State.tick_row h (congrArg Host.Outcome.next (s.readData_ready (State.ready_of_stepOp h rfl))) rfl p
  · exact State.tick_row_hold h rfl rfl rfl rfl p
  · exact State.tick_row h (congrArg Host.Outcome.next (s.writeData_ready (State.ready_of_stepOp h rfl))) rfl p
  · exact State.tick_row_hold h rfl rfl rfl rfl p
  · rintro (h | h) <;> exact State.tick_row_hold h rfl rfl rfl rfl p
  · exact State.tick_row h rfl rfl p

/-! ### The wires -/

/-- Settles O23: what is due decides both the enable and the channel after the tick. -/
theorem writeEnableExactlyWhenQueued : Obligations.WriteEnableExactlyWhenQueued := by
  intro s p hp
  obtain ⟨i, hop, -⟩ := s.stepOp_spec
  refine ⟨?_, _, step_tick_used hp, ?_⟩
  · simp only [State.chWe, State.duePush_of_stepOp hop, pushedBy_isSome_iff, hop, Except.ok.injEq]
  · refine (s.tick_ch p).trans ?_
    cases hdue : s.duePush <;> simp [State.chWe, State.chDin, hdue]

/-- Settles O25: each enable is 1 in its operation alone, which is of its phase and needs room. -/
theorem portArbiter : Obligations.PortArbiter := by
  intro s
  refine ⟨State.rfRdEn_iff, State.rfWrEn_iff, fun ⟨hrd, hwr⟩ => ?_, fun hrd => ?_, s.rfWrEn_iff_ph_ready.1⟩
  · have h := (State.rfRdEn_iff.1 hrd).symm.trans (State.rfWrEn_iff.1 hwr)
    simp at h
  · have hop := State.rfRdEn_iff.1 hrd
    exact ⟨(Option.some.inj (State.ph_of_stepOp hop)).symm, State.ready_of_stepOp hop rfl⟩

/-! ### IDLE -/

/-- Settles O6: by the strobe that is at 0. -/
theorem idleStartsACycle : Obligations.IdleStartsACycle := by
  intro s hph hready hcs
  refine ⟨fun hrd => ?_, fun hrd hwr => ?_⟩
  · have hop : s.stepOp = .ok .idleRd := by simp [State.stepOp_idle hph, hready, hcs, hrd]
    obtain ⟨hwe, hdin⟩ := State.wires_of_push hop rfl
    exact ⟨hop, hwe, hdin, congrArg Host.Outcome.next (s.idleStart_ready _ hready)⟩
  · have hop : s.stepOp = .ok .idleWr := by simp [State.stepOp_idle hph, hready, hcs, hrd, hwr]
    obtain ⟨hwe, hdin⟩ := State.wires_of_push hop rfl
    exact ⟨hop, hwe, hdin, congrArg Host.Outcome.next (s.idleStart_ready _ hready)⟩

/-- Settles O8: by the strobe that is at 0; the row pushes nothing and only turns the driver off. -/
theorem idleStallsOnAFullChannel : Obligations.IdleStallsOnAFullChannel := by
  intro s hph hfull hcs
  refine ⟨fun hrd => ?_, fun hrd hwr => ?_⟩
  · have hop : s.stepOp = .ok .idleStallRd := by simp [State.stepOp_idle hph, hfull, hcs, hrd]
    exact ⟨hop, State.chWe_of_no_push hop rfl, rfl⟩
  · have hop : s.stepOp = .ok .idleStallWr := by simp [State.stepOp_idle hph, hfull, hcs, hrd, hwr]
    exact ⟨hop, State.chWe_of_no_push hop rfl, rfl⟩

/-! ### PREPARE, READ and WRITE without room or strobe -/

/-- Settles O11: the case selects its row, which pushes nothing and answers the state it was given. -/
theorem prepareWaitsAndStalls : Obligations.PrepareWaitsAndStalls := by
  intro s hph
  refine ⟨fun hrd hwr => ?_, fun hfull hrd => ?_, fun hfull hrd hwr => ?_⟩
  · have hop : s.stepOp = .ok .prepareWait := by simp [State.stepOp_prepare hph, hrd, hwr]
    exact ⟨hop, State.chWe_of_no_push hop rfl, rfl⟩
  · have hop : s.stepOp = .ok .prepareStallRd := by simp [State.stepOp_prepare hph, hfull, hrd]
    exact ⟨hop, State.chWe_of_no_push hop rfl, rfl⟩
  · have hop : s.stepOp = .ok .prepareStallWr := by simp [State.stepOp_prepare hph, hfull, hrd, hwr]
    exact ⟨hop, State.chWe_of_no_push hop rfl, rfl⟩

/-- Settles O14: a full channel selects the stall row, which uses no port. -/
theorem readAndWriteStall : Obligations.ReadAndWriteStall := by
  intro s hfull
  refine ⟨fun hph => ?_, fun hph => ?_⟩
  · have hop : s.stepOp = .ok .readStall := by simp [State.stepOp_read hph, hfull]
    exact ⟨hop, State.chWe_of_no_push hop rfl, Bool.eq_false_iff.2 (by simp [State.rfRdEn_iff, hop]), rfl⟩
  · have hop : s.stepOp = .ok .writeStall := by simp [State.stepOp_write hph, hfull]
    exact ⟨hop, State.chWe_of_no_push hop rfl, Bool.eq_false_iff.2 (by simp [State.rfWrEn_iff, hop]), rfl⟩

/-! ### What selection looks at -/

/-- Settles O26: both phases test the read-strobe first. -/
theorem readWinsTheTie : Obligations.ReadWinsTheTie := by
  intro s hrd hwr
  exact ⟨fun hph hcs => by simp [State.stepOp_idle hph, hcs, hrd], fun hph => by simp [State.stepOp_prepare hph, hrd]⟩

/-- Settles O27: outside IDLE the table's choice names no chip-select; IDLE without it holds. -/
theorem chipSelectCountsInIdleOnly : Obligations.ChipSelectCountsInIdleOnly := by
  intro s level
  refine ⟨fun hne => ?_, fun hph hcs => by simp [State.stepOp_idle hph, hcs]⟩
  cases hph : s.ph with
  | idle => exact absurd hph hne
  | prepare => exact (State.stepOp_prepare rfl).trans (State.stepOp_prepare hph).symm
  | read => exact (State.stepOp_read rfl).trans (State.stepOp_read hph).symm
  | write => exact (State.stepOp_write rfl).trans (State.stepOp_write hph).symm
  | cleanup => exact (State.stepOp_cleanup rfl).trans (State.stepOp_cleanup hph).symm

/-! ### BUSCTL -/

/-- A BUSCTL row is the Cycle Decoder's reaction to its three levels (R51). -/
theorem exec_busctlOf (s : State) (cs rdN wrN : Bool) :
    exec (busctlOf cs rdN wrN) s = .next (s.cycleDecoder cs rdN wrN) := by
  cases cs <;> cases rdN <;> cases wrN <;> rfl

/-- On any levels of the control lines the table selects an operation that does what R80's case distinction says of them. -/
theorem exec_decodeStep_lines (s : State) (cs rdN wrN : Bool) :
    ∃ i, decodeStep (stepBits s.ph s.ready cs rdN wrN) = .ok i ∧
      exec i s = .next (s.cycleDecoder cs rdN wrN) := by
  cases h : s.ph
  case' idle => refine ⟨_, decodeStep_idle .., ?_⟩; cases hr : s.ready <;> cases cs <;> cases rdN <;> cases wrN
  case' prepare => refine ⟨_, decodeStep_prepare .., ?_⟩; cases hr : s.ready <;> cases rdN <;> cases wrN
  case' read => refine ⟨_, decodeStep_read .., ?_⟩; cases hr : s.ready
  case' write => refine ⟨_, decodeStep_write .., ?_⟩; cases hr : s.ready
  case' cleanup => refine ⟨_, decodeStep_cleanup .., ?_⟩; cases rdN <;> cases wrN
  all_goals
    simp [*, State.cycleDecoder, s.idleStart_full, s.prepareExit_full, s.readData_full, s.writeData_full]
    rfl

/-- Settles O28: both do what the case distinction says at those levels. -/
theorem busctlRunsTheSelectedOperation : Obligations.BusctlRunsTheSelectedOperation := by
  intro s cs rdN wrN
  obtain ⟨i, hi, he⟩ := exec_decodeStep_lines s cs rdN wrN
  exact ⟨i, _, hi, (exec_busctlOf ..).trans he.symm, exec_busctlOf ..⟩

/-- Settles O29: the Cycle Decoder's case distinction at the value's levels. -/
theorem busctlTable : Obligations.BusctlTable := by
  intro s v hready
  refine ⟨_, exec_busctlOf .., ?_, ?_, ?_, ?_, ?_, ?_, ?_, ?_, ?_, ?_⟩
  · rintro hph (rfl | rfl | rfl | rfl | rfl) <;> simp [State.cycleDecoder, hph, State.driverOff]
  · rintro hph (rfl | rfl) <;> simp [State.cycleDecoder, hph, s.idleStart_ready _ hready, tagReadTrace]
  · rintro hph rfl; simp [State.cycleDecoder, hph, s.idleStart_ready _ hready, tagWriteTrace]
  · rintro hph (rfl | rfl | rfl | rfl) <;> simp [State.cycleDecoder, hph, s.prepareExit_ready _ hready, addrByte]
  · rintro hph (rfl | rfl) <;> simp [State.cycleDecoder, hph, s.prepareExit_ready _ hready, addrByte]
  · rintro hph (rfl | rfl) <;> simp [State.cycleDecoder, hph]
  · intro hph; simp [State.cycleDecoder, hph, exec, execReadExec]
  · intro hph; simp [State.cycleDecoder, hph, exec, execWriteExec]
  · rintro hph (rfl | rfl) <;> simp [State.cycleDecoder, hph, State.goto]
  · intro hph h3 h7
    have hlow : (v.getLsbD 1 && v.getLsbD 0) = false := by revert v; decide
    simp only [State.cycleDecoder, hph, hlow]
    rfl

/-! ### Frames -/

/-- Settles O44: by what the row does, with room and without. -/
theorem stepOperationsFrame : Obligations.StepOperationsFrame := by
  intro s i hi hne
  rcases exec_stepOperation (rowPhase_of_stepOperation hi) s with ⟨rfl | rfl, _, hpush, h⟩ | ⟨hrow, hpush, h⟩ |
    ⟨rfl | rfl, hpush, _, h⟩ | ⟨rfl, hpush, h⟩ | ⟨rfl, -, -⟩ | ⟨rfl, hpush, h⟩ | ⟨hpush, h⟩
  case inr.inr.inr.inr.inl => exact absurd rfl hne
  all_goals
    refine ⟨_, h, ?_⟩
    cases hr : s.ready
  all_goals
    simp [hpush, hr, s.idleStart_ready, s.idleStart_full, s.prepareExit_ready, s.prepareExit_full, s.readData_ready,
      s.readData_full, State.rfRdData, State.rfAddr]
  all_goals exact .inr (.inr (.inr hrow))

/-- Settles O45: with room the write is R92's, without it nothing happens. -/
theorem writeExecFrame : Obligations.WriteExecFrame := by
  intro s
  refine ⟨s.writeData, rfl, ?_⟩
  cases hr : s.ready with
  | true =>
    rw [s.writeData_ready hr]
    exact ⟨rfl, fun _ ha b hb => (s.rf.read_write ..).trans (if_neg fun h => hb (h.trans ha)), by simp⟩
  | false =>
    rw [s.writeData_full hr]
    exact ⟨rfl, fun _ _ _ _ => rfl, fun _ => rfl⟩

/-- Settles O46: a BUSCTL value is the Cycle Decoder's reaction, one of its outcomes; SAMPLE is the sampler's. -/
theorem busctlAndSampleFrame : Obligations.BusctlAndSampleFrame := by
  intro s v i hi
  rcases hi with rfl | rfl
  · have hne : decodeBusctl v ≠ .sample := by revert v; decide
    refine ⟨_, exec_busctlOf .., ?_⟩
    have houtcome := s.cycleDecoder_cases (v.getLsbD 2) (v.getLsbD 1) (v.getLsbD 0)
    generalize s.cycleDecoder (v.getLsbD 2) (v.getLsbD 1) (v.getLsbD 0) = t at houtcome ⊢
    rcases houtcome with h | h | h | h | h | h | h | h | h | h | h | h <;> simp +contextual [h, hne]
  · exact ⟨_, rfl, by simp⟩

/-! ### Confinement -/

theorem State.mem_stepOperations_of_stepOp (hop : s.stepOp = .ok i) : i ∈ stepOperations := by
  obtain ⟨r, hr, -, hi, -⟩ := stepRow_of_decodeStep hop
  obtain rfl : i = r.instr := by simpa using hop.symm.trans hi
  exact List.mem_map_of_mem hr

/-- In IDLE every tick turns the driver off (R82 to R85). -/
theorem State.tick_oe_of_idle (h : s.ph = .idle) (p : Lines) : (s.tick p).oe = false := by
  rw [State.tick_eq]
  simp only [State.cycleDecoder, h]
  split_ifs <;> simp

/-- Which rows change the address latch, the driven value and, outside IDLE, the driver. -/
theorem State.tick_registers (hop : s.stepOp = .ok i) (p : Lines) :
    (i ≠ .idleRd → i ≠ .idleWr → (s.tick p).addrLatch = s.addrLatch) ∧
    (i ≠ .readExec → (s.tick p).dout = s.dout) ∧
    (i ≠ .readExec → s.ph ≠ .idle → (s.tick p).oe = s.oe) := by
  by_cases hwrite : i = .writeExec
  · subst hwrite
    obtain ⟨t, he, hframe, -⟩ := writeExecFrame s
    rw [State.tick_of_stepOp hop he, ← hframe]
    simp
  · obtain ⟨t, he, -, -, -, -, -, -, -, -, -, -, hlatch, hdout, hoe, -⟩ :=
      stepOperationsFrame s i (State.mem_stepOperations_of_stepOp hop) hwrite
    rw [State.tick_of_stepOp hop he]
    refine ⟨hlatch, hdout, fun hread hidle => ?_⟩
    rcases hoe with h | ⟨-, h⟩ | ⟨-, h⟩
    · exact h
    · exact absurd h hread
    · have hphase := State.ph_of_stepOp hop
      rcases h with rfl | rfl | rfl | rfl | rfl | rfl <;> exact absurd (Option.some.inj hphase).symm hidle

/-- Settles O22: the selected row's frame, with SAMPLE's. -/
theorem tickConfinesItsEffects : Obligations.TickConfinesItsEffects := by
  intro s p hp
  obtain ⟨i, hop, -⟩ := s.stepOp_spec
  obtain ⟨hlatch, hdout, hoe⟩ := State.tick_registers hop p
  simp only [hop, ne_eq, Except.ok.injEq]
  refine ⟨_, step_tick_used hp, s.tick_hb p, s.tick_log p, s.tick_chDepth p, by simp, s.tick_pins p, rfl, rfl,
    fun h b => ?_, fun h1 h2 h3 h4 h5 h6 => ?_, hlatch, hdout, hoe, fun h => State.tick_oe_of_idle h p⟩
  · exact (s.tick_read p b).trans (if_neg fun hw => h (by simpa [hop] using State.rfWrEn_iff.1 hw.1))
  · have hpush : s.pushedBy i = none := by
      rw [← Option.not_isSome_iff_eq_none, pushedBy_isSome_iff]
      simp [h1, h2, h3, h4, h5, h6]
    simp [State.tick_ch, State.duePush_of_stepOp hop, hpush]

end Sys2Proof.Machine

/-! What a step can be, and what every step keeps: the invariant of 41_cycle_decoder.md section 7 and the byte stream of
43_framer.md. -/

namespace Sys2Proof.Machine

variable {s : State}

/-! ### What a step can be -/

/-- A step whose instruction the host or a bus master's pseudo-operation performs adds nothing to it. -/
theorem step_of_other_move {i : Instr} {t : State} (hf : s.fetchFor s.nextInput = .ok i)
    (hother : s.nextInput.isTick = false) (he : exec i s.accept = .next t) : step s = .next t := by
  rw [step_of_fetch s hf he, hother, State.finish_other]

/-- A pseudo-operation's frame is one the hardware emits (R53, R55). -/
theorem decodeFrame_readTrace (a : Addr) (d : Byte) :
    decodeFrame tagReadTrace (addrByte a) d = .ok (.readTrace (addrByte a) d) :=
  if_pos (addrByteOk_addrByte a)

theorem decodeFrame_writeTrace (a : Addr) (d : Byte) :
    decodeFrame tagWriteTrace (addrByte a) d = .ok (.writeTrace (addrByte a) d) :=
  if_pos (addrByteOk_addrByte a)

/-- A step is one tick, one or three HostPops, or the ticks of a pseudo-operation (R62, R80, R141). -/
theorem step_cases (s : State) :
    (∃ p, s.nextInput = .tick p ∧ step s = .next { s.tick p with inputs := s.inputs.tail, moves := s.moves + 1 }) ∨
    (s.nextInput = .hostPop ∧ step s = .next s.accept.popByte) ∨
    (s.nextInput = .hostEvent ∧
      (step s = .next s.accept.popByte ∨ step s = .next s.accept.popByte.popByte.popByte)) ∨
    (((∃ a, s.nextInput = .busRead a) ∨ ∃ a d, s.nextInput = .busWrite a d) ∧
      ∃ ps, step s = .next (s.accept.ticks ps)) := by
  cases h : s.nextInput with
  | tick p => exact .inl ⟨p, rfl, step_tick_used h⟩
  | hostPop => exact .inr (.inl ⟨rfl, step_of_other_move (by rw [h]; rfl) (by rw [h]; rfl) rfl⟩)
  | hostEvent =>
    refine .inr (.inr (.inl ⟨rfl, ?_⟩))
    have hf : s.fetchFor s.nextInput = .ok s.accept.fetchEvent := by rw [h]; rfl
    exact (exec_fetchEvent_cases s.accept).imp (step_of_other_move hf (by rw [h]; rfl))
      (step_of_other_move hf (by rw [h]; rfl))
  | busRead a =>
    refine .inr (.inr (.inr ⟨.inl ⟨a, rfl⟩, _,
      step_of_other_move (i := .readTrace (addrByte a) (s.rf.read a)) ?_ ?_ rfl⟩))
    · rw [h]; exact decodeFrame_readTrace a _
    · rw [h]; rfl
  | busWrite a d =>
    refine .inr (.inr (.inr ⟨.inr ⟨a, d, rfl⟩, _,
      step_of_other_move (i := .writeTrace (addrByte a) d) ?_ ?_ rfl⟩))
    · rw [h]; exact decodeFrame_writeTrace a d
    · rw [h]; rfl

/-- Settles O19: each kind of step answers. -/
theorem everyStepAnswers : Obligations.EveryStepAnswers := by
  intro s
  rcases step_cases s with ⟨_, _, h⟩ | ⟨_, h⟩ | ⟨_, h | h⟩ | ⟨_, _, h⟩ <;> exact ⟨_, h⟩

/-! ### The byte stream -/

@[simp] theorem State.accept_stream (s : State) : s.accept.stream = s.stream := rfl

/-- A tick puts the byte that was due behind the stream (R126). -/
theorem State.tick_stream (s : State) (p : Lines) : (s.tick p).stream = s.stream ++ s.duePush.toList := by
  simp [State.stream, State.tick_ch]

/-- Ticks only add to the stream. -/
theorem State.ticks_stream (s : State) (ps : List Lines) : ∃ pushed, (s.ticks ps).stream = s.stream ++ pushed := by
  induction ps generalizing s with
  | nil => exact ⟨[], by simp⟩
  | cons p ps ih =>
    obtain ⟨pushed, h⟩ := ih (s.tick p)
    exact ⟨s.duePush.toList ++ pushed, by rw [State.ticks_cons, h, State.tick_stream, List.append_assoc]⟩

/-- A host that holds at most two bytes still does after HostPop. -/
theorem State.popByte_hb (h : s.hb.length ≤ 2) : s.popByte.hb.length ≤ 2 := by
  rcases s.popByte_cases with ⟨-, hpop⟩ | ⟨b, rest, -, hpop⟩ <;> rw [hpop]
  · exact h
  · rcases State.hostByte_cases { s with ch := rest } b with ⟨_, _, _, -, hbyte⟩ | ⟨hlen, hbyte⟩ <;> rw [hbyte]
    · simp
    · simpa using hlen

/-- HostPop moves the byte at the channel's head to the end of what the host has, which is the same stream (R40, R144). -/
theorem State.popByte_stream (h : s.hb.length ≤ 2) : s.popByte.stream = s.stream := by
  rcases hch : s.ch with _ | ⟨b, rest⟩
  · rw [State.popByte_nil hch]
  rw [State.popByte_cons hch]
  match hhb : s.hb with
  | [tag, addr] => simp [State.hostByte_complete hhb, State.stream, hhb, hch, Event.bytes]
  | [] | [_] => rw [State.hostByte_keep (by simp [hhb])]; simp [State.stream, hch, hhb]
  | _ :: _ :: _ :: _ => simp [hhb] at h

/-- What HostPop keeps, three of them keep. -/
theorem State.popByte_three_stream (h : s.hb.length ≤ 2) : s.popByte.popByte.popByte.stream = s.stream := by
  have h1 := State.popByte_hb h
  rw [State.popByte_stream (State.popByte_hb h1), State.popByte_stream h1, State.popByte_stream h]

/-- Settles O52: by the kind of step. -/
theorem streamOnlyGrows : Obligations.StreamOnlyGrows := by
  intro s hhb
  rcases step_cases s with ⟨p, hp, h⟩ | ⟨hm, h⟩ | ⟨hm, h⟩ | ⟨hm, ps, h⟩
  · refine ⟨_, h, s.duePush.toList, s.tick_stream p, fun _ => ?_, by simp [hp]⟩
    cases s.duePush <;> simp
  · exact ⟨_, h, [], by simpa using State.popByte_stream (s := s.accept) hhb, by simp, by simp⟩
  · rcases h with h | h
    · exact ⟨_, h, [], by simpa using State.popByte_stream (s := s.accept) hhb, by simp, by simp⟩
    · exact ⟨_, h, [], by simpa using State.popByte_three_stream (s := s.accept) hhb, by simp, by simp⟩
  · obtain ⟨pushed, hpushed⟩ := s.accept.ticks_stream ps
    refine ⟨_, h, pushed, hpushed, ?_, ?_⟩ <;> rcases hm with ⟨a, hm⟩ | ⟨a, d, hm⟩ <;> simp [hm]

/-! ### Frames in the stream -/

/-- Whole frames do not look at what follows them: what can be done to the partial frame can be done to the stream. -/
theorem streamOk_append {ph ph' : Phase} {a a' : Addr} {ext : List Byte}
    (hpart : ∀ part, part.length ≤ 2 → streamOk ph a part = true → streamOk ph' a' (part ++ ext) = true) :
    ∀ l, streamOk ph a l = true → streamOk ph' a' (l ++ ext) = true
  | tag :: addr :: data :: rest, h => by
    simp only [streamOk, Bool.and_eq_true, List.cons_append] at h ⊢
    exact ⟨h.1, streamOk_append hpart rest h.2⟩
  | [tag, addr], h => hpart _ (by simp) h
  | [tag], h => hpart _ (by simp) h
  | [], h => hpart _ (by simp) h

/-- In IDLE no frame is begun: a tag begins one, for PREPARE (R82, R83). -/
theorem streamOk_tag {a a' : Addr} {tag : Byte} (htag : emittedTag tag = true) {l : List Byte}
    (h : streamOk .idle a l = true) : streamOk .prepare a' (l ++ [tag]) = true := by
  refine streamOk_append (fun part hlen hpart => ?_) l h
  match part with
  | [] => simp [streamOk, htag]
  | [_] | [_, _] => simp [streamOk] at hpart

/-- In PREPARE one byte of a frame is queued: the latched address goes behind it, for READ or WRITE (R86, R87). -/
theorem streamOk_addr {ph : Phase} {a : Addr} (hph : ph = .read ∨ ph = .write) {l : List Byte}
    (h : streamOk .prepare a l = true) : streamOk ph a (l ++ [addrByte a]) = true := by
  refine streamOk_append (fun part hlen hpart => ?_) l h
  match part with
  | [tag] =>
    have htag : emittedTag tag = true := by simpa [streamOk] using hpart
    rcases hph with rfl | rfl <;> simp [streamOk, htag]
  | [] | [_, _] => simp [streamOk] at hpart

/-- In READ and WRITE two bytes of a frame are queued: a data byte completes it, for CLEANUP (R90, R92). -/
theorem streamOk_data {ph : Phase} {a : Addr} (hph : ph = .read ∨ ph = .write) {l : List Byte} (data : Byte)
    (h : streamOk ph a l = true) : streamOk .cleanup a (l ++ [data]) = true := by
  refine streamOk_append (fun part hlen hpart => ?_) l h
  match part with
  | [tag, addr] =>
    simp only [streamOk, Bool.and_eq_true, beq_iff_eq] at hpart
    obtain ⟨⟨htag, rfl⟩, -⟩ := hpart
    simp [streamOk, htag, addrByteOk_addrByte]
  | [] | [_] => rcases hph with rfl | rfl <;> simp [streamOk] at hpart

/-- CLEANUP and IDLE both have whole frames only. -/
theorem streamOk_return {a : Addr} {l : List Byte} (h : streamOk .cleanup a l = true) : streamOk .idle a l = true := by
  refine l.append_nil ▸ streamOk_append (fun part hlen hpart => ?_) l h
  match part with
  | [] => rfl
  | [_] | [_, _] => simp [streamOk] at hpart

/-! ### The invariant -/

/-- Settles O50: at reset the stream is empty and the phase IDLE. -/
theorem resetMeetsTheInvariant : Obligations.ResetMeetsTheInvariant where
  memory := rfl
  depth := Nat.le_add_left 1 _
  bounded := Nat.zero_le _
  partialEvent := Nat.zero_le _
  framed := rfl
  driverOff := by simp [State.reset]
  driven := by simp [State.reset]

/-- Sampler, pins and pending moves are no part of the invariant. -/
theorem State.Inv.of_surroundings (h : s.Inv) (smp : Lines) (sync : List Lines) (pins : Lines) (inputs : List Input)
    (moves : Nat) : State.Inv { s with smp := smp, sync := sync, pins := pins, inputs := inputs, moves := moves } :=
  ⟨h.memory, h.depth, h.bounded, h.partialEvent, h.framed, h.driverOff, h.driven⟩

/-! Each outcome of the Cycle Decoder keeps it. A pushed byte fits, because the channel has room. -/

theorem State.Inv.bounded_push (hready : s.ready = true) (b : Byte) : (s.ch ++ [b]).length ≤ s.chDepth := by
  simpa using s.ready_iff.1 hready

theorem streamOk_push {ph : Phase} {a : Addr} {b : Byte} (h : streamOk ph a (s.stream ++ [b]) = true) :
    streamOk ph a (s.log.flatMap Event.bytes ++ s.hb ++ (s.ch ++ [b])) = true := by
  simpa [State.stream] using h

theorem State.Inv.start (h : s.Inv) (hph : s.ph = .idle) (hready : s.ready = true) {tag : Byte}
    (htag : emittedTag tag = true) (a : Addr) :
    State.Inv { s with oe := false, ch := s.ch ++ [tag], addrLatch := a, ph := .prepare } where
  memory := h.memory
  depth := h.depth
  bounded := State.Inv.bounded_push hready tag
  partialEvent := h.partialEvent
  framed := streamOk_push (streamOk_tag htag (hph ▸ h.framed))
  driverOff := by simp
  driven := by simp

theorem State.Inv.release (h : s.Inv) : State.Inv { s with oe := false } where
  memory := h.memory
  depth := h.depth
  bounded := h.bounded
  partialEvent := h.partialEvent
  framed := h.framed
  driverOff := by simp
  driven := by simp

/-- In PREPARE, READ and WRITE the driver is off. -/
theorem State.Inv.oe_eq_false (h : s.Inv) (hidle : s.ph ≠ .idle) (hcleanup : s.ph ≠ .cleanup) : s.oe = false :=
  Bool.eq_false_iff.2 fun hoe => (h.driverOff hoe).elim hidle hcleanup

theorem State.Inv.exitPrepare (h : s.Inv) (hph : s.ph = .prepare) (hready : s.ready = true) {ph : Phase}
    (hnext : ph = .read ∨ ph = .write) : State.Inv { s with ch := s.ch ++ [addrByte s.addrLatch], ph := ph } where
  memory := h.memory
  depth := h.depth
  bounded := State.Inv.bounded_push hready _
  partialEvent := h.partialEvent
  framed := streamOk_push (streamOk_addr hnext (hph ▸ h.framed))
  driverOff := by simp [h.oe_eq_false, hph]
  driven := h.driven

theorem State.Inv.readEntry (h : s.Inv) (hph : s.ph = .read) (hready : s.ready = true) :
    State.Inv { s with dout := s.rf.read s.addrLatch, oe := true, ch := s.ch ++ [s.rf.read s.addrLatch],
                       ph := .cleanup } where
  memory := h.memory
  depth := h.depth
  bounded := State.Inv.bounded_push hready _
  partialEvent := h.partialEvent
  framed := streamOk_push (streamOk_data (.inl rfl) _ (hph ▸ h.framed))
  driverOff := by simp
  driven := fun _ => rfl

theorem State.Inv.writeEntry (h : s.Inv) (hph : s.ph = .write) (hready : s.ready = true) (b : Byte) :
    State.Inv { s with rf := s.rf.write s.addrLatch b, ch := s.ch ++ [b], ph := .cleanup } where
  memory := Memory.write_wf h.memory ..
  depth := h.depth
  bounded := State.Inv.bounded_push hready _
  partialEvent := h.partialEvent
  framed := streamOk_push (streamOk_data (.inr rfl) _ (hph ▸ h.framed))
  driverOff := by simp
  driven := by simp [h.oe_eq_false, hph]

theorem State.Inv.finishCycle (h : s.Inv) (hph : s.ph = .cleanup) : State.Inv { s with ph := .idle } where
  memory := h.memory
  depth := h.depth
  bounded := h.bounded
  partialEvent := h.partialEvent
  framed := streamOk_return (hph ▸ h.framed)
  driverOff := by simp
  driven := h.driven

/-- R98 over every outcome of the Cycle Decoder. -/
theorem State.Inv.cycleDecoder (h : s.Inv) (cs rdN wrN : Bool) : (s.cycleDecoder cs rdN wrN).Inv := by
  rcases s.cycleDecoder_cases cs rdN wrN with ⟨hph, -, -, hready, heq⟩ | ⟨hph, -, -, -, hready, heq⟩ | ⟨-, -, heq⟩ |
    ⟨hph, -, hready, heq⟩ | ⟨hph, -, -, hready, heq⟩ | ⟨-, -, heq⟩ | ⟨hph, hready, heq⟩ | ⟨-, -, heq⟩ |
    ⟨hph, hready, heq⟩ | ⟨-, -, heq⟩ | ⟨hph, -, -, heq⟩ | ⟨-, -, heq⟩ <;> rw [heq]
  · exact h.start hph hready rfl _
  · exact h.start hph hready rfl _
  · exact h.release
  · exact h.exitPrepare hph hready (.inl rfl)
  · exact h.exitPrepare hph hready (.inr rfl)
  · exact h
  · exact h.readEntry hph hready
  · exact h
  · exact h.writeEntry hph hready _
  · exact h
  · exact h.finishCycle hph
  · exact h

theorem State.Inv.tick (h : s.Inv) (p : Lines) : (s.tick p).Inv := by
  rw [State.tick_eq]
  exact (h.cycleDecoder ..).of_surroundings ..

theorem State.Inv.ticks (h : s.Inv) (ps : List Lines) : (s.ticks ps).Inv := by
  induction ps generalizing s with
  | nil => exact h
  | cons p ps ih => exact ih (h.tick p)

/-- HostPop leaves the stream as it is and shortens the channel. -/
theorem State.Inv.popByte (h : s.Inv) : s.popByte.Inv := by
  have hstream := State.popByte_stream h.partialEvent
  have hhb := State.popByte_hb h.partialEvent
  obtain ⟨hb, log, heq⟩ := s.popByte_eq_with
  rw [heq] at hstream hhb ⊢
  exact { memory := h.memory, depth := h.depth, bounded := by have := h.bounded; simp; omega, partialEvent := hhb,
          framed := hstream ▸ h.framed, driverOff := h.driverOff, driven := h.driven }

/-- Settles O51: a step is ticks or HostPops, each of which keeps the invariant. -/
theorem stepKeepsTheInvariant : Obligations.StepKeepsTheInvariant := by
  intro s t hs hstep
  have haccept : s.accept.Inv := hs.of_surroundings ..
  rcases step_cases s with ⟨p, -, h⟩ | ⟨-, h⟩ | ⟨-, h | h⟩ | ⟨-, ps, h⟩ <;>
    obtain rfl : _ = t := Host.Outcome.next.inj (h.symm.trans hstep)
  · exact (hs.tick p).of_surroundings ..
  · exact haccept.popByte
  · exact haccept.popByte
  · exact haccept.popByte.popByte.popByte
  · exact haccept.ticks ps

end Sys2Proof.Machine

/-! Ticks in a row: the machine with one synchronizer stage cycle by cycle, what lasts (CLEANUP with a strobe low, a full
channel), and the deeper synchronizer as a delay. -/

namespace Sys2Proof.Machine

variable {s : State}

/-! ### One stage -/

theorem State.cycleDecoder_sync (s : State) (cs rdN wrN : Bool) : (s.cycleDecoder cs rdN wrN).sync = s.sync :=
  (congrArg State.sync (s.cycleDecoder_frame cs rdN wrN) :)

/-- With one stage the sampler registers take the pins themselves (R71). -/
theorem State.tick_one_stage (hsync : s.sync = []) (p : Lines) :
    s.tick p = { s.cycleDecoder s.smp.cs s.smp.rdN s.smp.wrN with smp := p, pins := p } := by
  rw [State.tick_eq, hsync]
  simp [State.cycleDecoder_sync, hsync]

theorem State.ready_of_room {n : Nat} (h : s.room (n + 1)) : s.ready = true := by
  rw [State.ready_iff]
  exact Nat.lt_of_lt_of_le (by omega) h

/-- IDLE with a strobe at 0 (R82, R83): the read-strobe decides the tag. -/
theorem State.tick_idle_start (hsync : s.sync = []) (hph : s.ph = .idle) (hready : s.ready = true) (hcs : s.smp.cs = true)
    (hlow : s.smp.strobesHigh = false) (p : Lines) :
    s.tick p = { s with oe := false, ch := s.ch ++ [if s.smp.rdN then tagWriteTrace else tagReadTrace],
                        addrLatch := s.smp.a, ph := .prepare, smp := p, pins := p } := by
  rw [State.tick_one_stage hsync]
  cases hrd : s.smp.rdN <;> cases hwr : s.smp.wrN <;>
    simp_all [State.cycleDecoder, s.idleStart_ready, Lines.strobesHigh]

/-- PREPARE with a strobe at 0 (R86, R87): the read-strobe decides the data phase. -/
theorem State.tick_prepare_exit (hsync : s.sync = []) (hph : s.ph = .prepare) (hready : s.ready = true)
    (hlow : s.smp.strobesHigh = false) (p : Lines) :
    s.tick p = { s with ch := s.ch ++ [addrByte s.addrLatch], ph := if s.smp.rdN then .write else .read,
                        smp := p, pins := p } := by
  rw [State.tick_one_stage hsync]
  cases hrd : s.smp.rdN <;> cases hwr : s.smp.wrN <;>
    simp_all [State.cycleDecoder, s.prepareExit_ready, Lines.strobesHigh]

/-- READ or WRITE with room (R90, R92). -/
theorem State.tick_data (hsync : s.sync = []) {write : Bool} (hph : s.ph = if write then .write else .read)
    (hready : s.ready = true) (p : Lines) :
    s.tick p = { s with
      ph := .cleanup, oe := if write then s.oe else true, dout := if write then s.dout else s.rf.read s.addrLatch,
      rf := if write then s.rf.write s.addrLatch s.smp.d else s.rf,
      ch := s.ch ++ [if write then s.smp.d else s.rf.read s.addrLatch], smp := p, pins := p } := by
  rw [State.tick_one_stage hsync]
  cases write <;> simp_all [State.cycleDecoder, s.readData_ready, s.writeData_ready]

/-- CLEANUP with a strobe at 0 holds (R94); with any number of stages. -/
theorem State.tick_cleanup_wait (hph : s.ph = .cleanup) (hlow : s.smp.strobesHigh = false) (p : Lines) :
    s.tick p = { s with pins := p, smp := s.sync.getLastD p, sync := (p :: s.sync).dropLast } := by
  have hhold : s.cycleDecoder s.smp.cs s.smp.rdN s.smp.wrN = s := by
    simp only [State.cycleDecoder, hph]
    exact if_neg (Bool.eq_false_iff.1 hlow)
  rw [State.tick_eq, hhold]

/-- CLEANUP with both strobes at 1 returns to IDLE (R95). -/
theorem State.tick_cleanup_done (hsync : s.sync = []) (hph : s.ph = .cleanup) (hhigh : s.smp.strobesHigh = true)
    (p : Lines) :
    s.tick p = { s with ph := .idle, smp := p, pins := p } := by
  have hdone : s.cycleDecoder s.smp.cs s.smp.rdN s.smp.wrN = s.goto .idle := by
    simp only [State.cycleDecoder, hph]
    exact if_pos hhigh
  rw [State.tick_one_stage hsync, hdone]
  rfl

/-- The three ticks of a frame (R96, R97, R99), one stage: IDLE decides the tag, PREPARE the data phase. -/
theorem State.ticks_frame (hsync : s.sync = []) (hph : s.ph = .idle) (hcs : s.smp.cs = true)
    (hlow : s.smp.strobesHigh = false) (hroom : s.room 3) {p1 : Lines} (hlow1 : p1.strobesHigh = false) (p2 p3 : Lines) :
    s.ticks [p1, p2, p3] = { s with
      ph := .cleanup, addrLatch := s.smp.a, oe := !p1.rdN, dout := if p1.rdN then s.dout else s.rf.read s.smp.a,
      rf := if p1.rdN then s.rf.write s.smp.a p2.d else s.rf,
      ch := s.ch ++ [if s.smp.rdN then tagWriteTrace else tagReadTrace, addrByte s.smp.a,
                     if p1.rdN then p2.d else s.rf.read s.smp.a],
      smp := p3, pins := p3 } := by
  have hroom : s.ch.length + 3 ≤ s.chDepth := hroom
  simp only [State.ticks_cons, State.ticks_nil]
  rw [State.tick_idle_start hsync hph (State.ready_of_room (n := 2) hroom) hcs hlow,
    State.tick_prepare_exit (p := p2), State.tick_data (write := p1.rdN) (p := p3)]
  · cases p1.rdN <;> simp
  exacts [hsync, rfl, by simp [State.ready]; omega, hsync, rfl, by simp [State.ready]; omega, hlow1]

/-- CLEANUP for as long as a strobe is low, then IDLE, one stage: `waits`, `release` and `last` are the samples it sees, the
first of them sampled already (R94, R95). -/
theorem State.ticks_cleanup {waits : List Lines} {release last : Lines} (hwaits : ∀ w ∈ waits, w.strobesHigh = false)
    (hrelease : release.strobesHigh = true) {s : State} {ps : List Lines} (hsync : s.sync = []) (hph : s.ph = .cleanup)
    (hsamples : s.smp :: ps = waits ++ [release, last]) :
    s.ticks ps = { s with ph := .idle, smp := last, pins := last } := by
  induction waits generalizing s ps with
  | nil =>
    obtain ⟨hsmp, rfl⟩ : s.smp = release ∧ ps = [last] := by simpa using hsamples
    exact State.tick_cleanup_done hsync hph (hsmp ▸ hrelease) last
  | cons w ws ih =>
    obtain ⟨hsmp, rfl⟩ : s.smp = w ∧ ps = ws ++ [release, last] := by simpa using hsamples
    obtain ⟨q, rest, hrest⟩ := List.exists_cons_of_ne_nil (show ws ++ [release, last] ≠ [] by simp)
    rw [hrest, State.ticks_cons, State.tick_cleanup_wait hph (hsmp ▸ hwaits w (by simp)), hsync]
    exact ih (fun x hx => hwaits x (by simp [hx])) rfl hph hrest.symm

/-- A whole bus cycle of one stage (R96, R97, R99): a frame, any waits in CLEANUP, IDLE. -/
theorem State.ticks_busCycle (hsync : s.sync = []) (hph : s.ph = .idle) (hcs : s.smp.cs = true)
    (hlow : s.smp.strobesHigh = false) (hroom : s.room 3) {p1 : Lines} (hlow1 : p1.strobesHigh = false) (p2 : Lines)
    {waits : List Lines} (hwaits : ∀ w ∈ waits, w.strobesHigh = false) {release : Lines}
    (hrelease : release.strobesHigh = true) (last : Lines) :
    s.ticks (p1 :: p2 :: (waits ++ [release, last])) = { s with
      ph := .idle, addrLatch := s.smp.a, oe := !p1.rdN, dout := if p1.rdN then s.dout else s.rf.read s.smp.a,
      rf := if p1.rdN then s.rf.write s.smp.a p2.d else s.rf,
      ch := s.ch ++ [if s.smp.rdN then tagWriteTrace else tagReadTrace, addrByte s.smp.a,
                     if p1.rdN then p2.d else s.rf.read s.smp.a],
      smp := last, pins := last } := by
  obtain ⟨q, rest, hrest⟩ := List.exists_cons_of_ne_nil (show waits ++ [release, last] ≠ [] by simp)
  have hframe := s.ticks_frame hsync hph hcs hlow hroom hlow1 p2 q
  calc s.ticks (p1 :: p2 :: (waits ++ [release, last]))
      = (s.ticks [p1, p2, q]).ticks rest := by rw [hrest]; rfl
    _ = _ := by
      rw [hframe]
      exact State.ticks_cleanup hwaits hrelease hsync rfl hrest.symm

/-- Settles O33: the bus cycle whose IDLE and PREPARE see the read-strobe at 0. -/
theorem readCycleWithAnyWaits : Obligations.ReadCycleWithAnyWaits := by
  intro s p1 p2 waits release last hsync hph hcs hrd hroom hrd1 hwaits hrelease
  refine ⟨_, rfl, ?_⟩
  rw [s.ticks_busCycle hsync hph hcs (by simp [Lines.strobesHigh, hrd]) hroom (by simp [Lines.strobesHigh, hrd1]) p2 hwaits
    hrelease last]
  simp [hrd, hrd1, tagReadTrace, addrByte]

/-- Settles O34: the bus cycle whose IDLE and PREPARE see the write-strobe alone at 0. -/
theorem writeCycleWithAnyWaits : Obligations.WriteCycleWithAnyWaits := by
  intro s p1 p2 waits release last hsync hph hcs hrd hwr hroom hrd1 hwr1 hwaits hrelease
  refine ⟨_, rfl, ?_⟩
  rw [s.ticks_busCycle hsync hph hcs (by simp [Lines.strobesHigh, hwr]) hroom (by simp [Lines.strobesHigh, hwr1]) p2 hwaits
    hrelease last]
  simp [hrd, hrd1, tagWriteTrace, addrByte]

/-- Settles O35: the frame's three ticks, field by field. -/
theorem mixedFrames : Obligations.MixedFrames := by
  intro s p1 p2 p3 hsync hph hcs hlow hlow1 hroom
  refine ⟨_, rfl, ?_⟩
  rw [s.ticks_frame hsync hph hcs hlow hroom hlow1 p2 p3]
  refine ⟨rfl, rfl, fun b => ?_, rfl, rfl, ?_⟩ <;> cases p1.rdN <;> simp [State.dataLinesDriven]

/-! ### What lasts -/

/-- Settles O37: in CLEANUP every sample, and so every tick, comes from a line record with a strobe at 0. -/
theorem unreleasedStrobeHangs : Obligations.UnreleasedStrobeHangs := by
  intro s ps hph hlow hsync hps
  refine ⟨_, rfl, ?_⟩
  induction ps generalizing s with
  | nil => rfl
  | cons p ps ih =>
    have hstages : ∀ x ∈ p :: s.sync, x.strobesHigh = false := by
      simpa using ⟨hps p (by simp), hsync⟩
    have hnext : (s.sync.getLastD p).strobesHigh = false := hstages _ (List.getLastD_mem_cons ..)
    rw [State.ticks_cons, State.tick_cleanup_wait hph hlow]
    exact congrArg (fun t : State => { t with smp := s.smp, sync := s.sync, pins := s.pins })
      (ih { s with pins := p, smp := s.sync.getLastD p, sync := (p :: s.sync).dropLast } hph hnext
        (fun x hx => hstages x (List.mem_of_mem_dropLast hx)) (fun q hq => hps q (by simp [hq])))

/-- With the channel full the Cycle Decoder can turn the driver off in IDLE and leave CLEANUP (R85, R95), nothing else. -/
theorem State.cycleDecoder_full (h : s.ready = false) (cs rdN wrN : Bool) :
    (s.ph = .idle ∧ s.cycleDecoder cs rdN wrN = { s with oe := false }) ∨
    (s.ph = .cleanup ∧ s.cycleDecoder cs rdN wrN = { s with ph := .idle }) ∨ s.cycleDecoder cs rdN wrN = s := by
  have houtcome := s.cycleDecoder_cases cs rdN wrN
  simp only [h, Bool.false_eq_true, false_and, and_false, false_or, or_true, true_and] at houtcome
  rcases houtcome with h | ⟨-, h⟩ | ⟨-, h⟩ | ⟨-, h⟩ | ⟨hph, -, -, h⟩ | ⟨-, -, h⟩
  · exact .inl h
  · exact .inr (.inr h)
  · exact .inr (.inr h)
  · exact .inr (.inr h)
  · exact .inr (.inl ⟨hph, h⟩)
  · exact .inr (.inr h)

theorem State.tick_full (h : s.ready = false) (p : Lines) :
    (s.tick p).ch = s.ch ∧ (s.tick p).ready = false ∧ (s.tick p).rf = s.rf ∧ (s.tick p).dout = s.dout ∧
    (s.tick p).addrLatch = s.addrLatch ∧ (s.ph ≠ .cleanup → (s.tick p).ph = s.ph) ∧
    (s.ph ≠ .idle → (s.tick p).oe = s.oe) := by
  rcases State.cycleDecoder_full h s.smp.cs s.smp.rdN s.smp.wrN with ⟨hph, heq⟩ | ⟨hph, heq⟩ | heq <;>
    rw [State.tick_eq, heq]
  · exact ⟨rfl, h, rfl, rfl, rfl, fun _ => rfl, fun hne => absurd hph hne⟩
  · exact ⟨rfl, h, rfl, rfl, rfl, fun hne => absurd hph hne, fun _ => rfl⟩
  · exact ⟨rfl, h, rfl, rfl, rfl, fun _ => rfl, fun _ => rfl⟩

/-- No number of ticks changes what one does not: the phases but CLEANUP last, and outside IDLE so does the driver. -/
theorem State.ticks_full (h : s.ready = false) (ps : List Lines) :
    (s.ticks ps).ch = s.ch ∧ (s.ticks ps).ready = false ∧ (s.ticks ps).rf = s.rf ∧ (s.ticks ps).dout = s.dout ∧
    (s.ticks ps).addrLatch = s.addrLatch ∧ (s.ph ≠ .cleanup → (s.ticks ps).ph = s.ph) ∧
    (s.ph ≠ .cleanup → s.ph ≠ .idle → (s.ticks ps).oe = s.oe) := by
  induction ps generalizing s with
  | nil => exact ⟨rfl, h, rfl, rfl, rfl, fun _ => rfl, fun _ _ => rfl⟩
  | cons p ps ih =>
    obtain ⟨hch, hready, hrf, hdout, hlatch, hph, hoe⟩ := State.tick_full h p
    obtain ⟨ihch, ihready, ihrf, ihdout, ihlatch, ihph, ihoe⟩ := ih hready
    refine ⟨ihch.trans hch, ihready, ihrf.trans hrf, ihdout.trans hdout, ihlatch.trans hlatch, fun hne => ?_,
      fun hne hidle => ?_⟩
    · exact (ihph ((hph hne).symm ▸ hne)).trans (hph hne)
    · exact (ihoe ((hph hne).symm ▸ hne) ((hph hne).symm ▸ hidle)).trans (hoe hidle)

/-- Settles O38: by induction over the ticks. -/
theorem stallEndsOnlyByAPop : Obligations.StallEndsOnlyByAPop := by
  intro s ps h
  obtain ⟨hch, hready, hrf, hdout, hlatch, hph, hoe⟩ := State.ticks_full h ps
  exact ⟨_, rfl, hch, hready, hrf, hdout, hlatch, fun hs => (hph (by simp [hs])).trans hs,
    fun hs => ⟨(hph (by simp [hs])).trans hs, hoe (by simp [hs]) (by simp [hs])⟩,
    fun hs => ⟨(hph (by simp [hs])).trans hs, hoe (by simp [hs]) (by simp [hs])⟩,
    fun hs => ⟨(hph (by simp [hs])).trans hs, hoe (by simp [hs]) (by simp [hs])⟩⟩

/-- From IDLE with the channel full a last tick turns the driver off. -/
theorem State.ticks_full_oe (h : s.ready = false) (hph : s.ph = .idle) {ps : List Lines} (hps : ps ≠ []) :
    (s.ticks ps).oe = false := by
  rw [← List.dropLast_append_getLast hps, State.ticks_append]
  obtain ⟨-, -, -, -, -, hidle, -⟩ := State.ticks_full h ps.dropLast
  exact State.tick_oe_of_idle ((hidle (by simp [hph])).trans hph) _

/-- Settles O36: both cycles are ticks, none of which queues or latches anything while the channel is full. -/
theorem stalledCycleIsLost : Obligations.StalledCycleIsLost := by
  intro s addr data hrest h
  have hidle : s.ph = .idle := by
    simp only [State.resting, Bool.and_eq_true, beq_iff_eq] at hrest
    exact hrest.1.1
  have hcycle {ps : List Lines} (hps : ps ≠ []) : (s.ticks ps).ch = s.ch ∧ (s.ticks ps).rf = s.rf ∧
      (s.ticks ps).oe = false ∧ (s.ticks ps).ph = .idle ∧ (s.ticks ps).addrLatch = s.addrLatch := by
    obtain ⟨hch, -, hrf, -, hlatch, hph, -⟩ := State.ticks_full h ps
    exact ⟨hch, hrf, State.ticks_full_oe h hidle hps, (hph (by simp [hidle])).trans hidle, hlatch⟩
  exact ⟨⟨_, rfl, hcycle (by simp [busScript])⟩, ⟨_, rfl, hcycle (by simp [busScript])⟩⟩

/-! ### Any number of stages -/

/-- The pins a state holds are overwritten by its next tick. -/
theorem State.ticks_pins (s : State) (p r : Lines) (ps : List Lines) :
    { State.ticks { s with pins := p } ps with pins := r } = { s.ticks ps with pins := r } := by
  cases ps with
  | nil => rfl
  | cons q ps =>
    have htick : State.tick { s with pins := p } q = s.tick q := by
      simp only [State.tick_eq]
      rw [s.cycleDecoder_sampler (l := s.smp) s.smp.cs s.smp.rdN s.smp.wrN rfl rfl s.sync p]
    rw [State.ticks_cons, State.ticks_cons, htick]

/-- Without its earlier stages a machine does in a tick what it did with them, on what the last of them held. -/
theorem State.tick_without_stages (s : State) (p : Lines) :
    State.tick { s with sync := [] } (s.sync.getLastD p) = { s.tick p with sync := [], pins := s.sync.getLastD p } := by
  simp only [State.tick_eq]
  rw [s.cycleDecoder_sampler (l := s.smp) s.smp.cs s.smp.rdN s.smp.wrN rfl rfl [] s.pins]
  rfl

/-- Pins and stages, oldest first: the last stage, then what the stages hold after a shift (R73). -/
theorem reverse_stages (p : Lines) (sync : List Lines) :
    (p :: sync).reverse = sync.getLastD p :: (p :: sync).dropLast.reverse := by
  rw [← List.getLast_eq_getLastD (List.cons_ne_nil p sync), ← List.reverse_concat, List.dropLast_append_getLast]

/-- Settles O5: tick by tick; the oldest stage is the pin record the machine with one stage takes, and the new pins go behind
the others. -/
theorem synchronizerOnlyDelays : Obligations.SynchronizerOnlyDelays := by
  intro s ps
  induction ps generalizing s with
  | nil => simp
  | cons p ps ih =>
    have hdelay : s.sync.reverse ++ p :: ps = s.sync.getLastD p :: ((p :: s.sync).dropLast.reverse ++ ps) := by
      simpa using congrArg (· ++ ps) (reverse_stages p s.sync)
    rw [hdelay, List.length_cons, List.take_succ_cons, State.ticks_cons, State.ticks_cons, State.tick_without_stages,
      ih, State.tick_sync]
    exact (State.ticks_pins { s.tick p with sync := [] } ..).symm

end Sys2Proof.Machine

/-! The bus master's pseudo-operations with any number of stages (R96, R97), by the delay law from the machine with one stage, and
the round-trip law over them. -/

namespace Sys2Proof.Machine

variable {s t : State}

/-! ### Stages and quiet lines -/

/-- After a run of ticks the stages hold the last pins, the newest first, and behind them what they held (R73). -/
theorem State.ticks_sync (s : State) (ps : List Lines) :
    (s.ticks ps).sync = (ps.reverse ++ s.sync).take s.sync.length := by
  induction ps generalizing s with
  | nil => simp
  | cons p ps ih =>
    rw [State.ticks_cons, ih, State.tick_sync]
    simp [List.dropLast_eq_take, List.take_append, List.take_take]

theorem State.resting_iff : s.resting = true ↔ s.ph = .idle ∧ s.smp.quiet = true ∧ ∀ x ∈ s.sync, x.quiet = true := by
  simp [State.resting, and_assoc]

/-- IDLE on a quiet sample only releases the driver (R84). -/
theorem State.tick_idle_quiet (hsync : s.sync = []) (hph : s.ph = .idle) (hquiet : s.smp.quiet = true) (p : Lines) :
    s.tick p = { s with oe := false, smp := p, pins := p } := by
  have hhold : s.cycleDecoder s.smp.cs s.smp.rdN s.smp.wrN = s.driverOff := by
    cases hcs : s.smp.cs <;> simp_all [State.cycleDecoder, Lines.quiet]
  rw [State.tick_one_stage hsync, hhold]
  rfl

theorem State.ticks_quiet (hsync : s.sync = []) (hph : s.ph = .idle) (hquiet : s.smp.quiet = true) {ps : List Lines}
    (hps : ∀ p ∈ ps, p.quiet = true) (last : Lines) :
    s.ticks (ps ++ [last]) = { s with oe := false, smp := last, pins := last } := by
  induction ps generalizing s with
  | nil => exact State.tick_idle_quiet hsync hph hquiet last
  | cons p ps ih =>
    rw [List.cons_append, State.ticks_cons, State.tick_idle_quiet hsync hph hquiet p]
    exact ih hsync hph (hps p (by simp)) fun q hq => hps q (by simp [hq])

/-! ### The two bus cycles -/

theorem busScript_eq (active : Lines) (stages : Nat) : busScript active stages =
    [active] ++ active :: active :: ([active] ++ [Lines.released, Lines.released]) ++
      List.replicate stages Lines.released := by
  simp [busScript, List.replicate_add]

/-- What the machine with one stage sees of a script: what the stages hold, then the script but for its last released pins. -/
theorem take_reverse_append_busScript (active : Lines) (sync : List Lines) :
    (sync.reverse ++ busScript active sync.length).take (busScript active sync.length).length =
      (sync.reverse ++ [active]) ++ active :: active :: ([active] ++ [Lines.released, Lines.released]) := by
  rw [busScript_eq, ← List.append_assoc, ← List.append_assoc]
  exact List.take_left' (by simp)

/-- The machine with one stage on quiet lines, then a bus cycle whose strobe stays low for one tick of CLEANUP. -/
theorem State.ticks_quiet_busCycle (hsync : s.sync = []) (hph : s.ph = .idle) (hquiet : s.smp.quiet = true)
    (hroom : s.room 3) {held : List Lines} (hheld : ∀ p ∈ held, p.quiet = true) {active : Lines} (hcs : active.cs = true)
    (hlow : active.strobesHigh = false) :
    s.ticks ((held ++ [active]) ++ active :: active :: ([active] ++ [Lines.released, Lines.released])) = { s with
      ph := .idle, addrLatch := active.a, oe := !active.rdN,
      dout := if active.rdN then s.dout else s.rf.read active.a,
      rf := if active.rdN then s.rf.write active.a active.d else s.rf,
      ch := s.ch ++ [if active.rdN then tagWriteTrace else tagReadTrace, addrByte active.a,
                     if active.rdN then active.d else s.rf.read active.a],
      smp := Lines.released, pins := Lines.released } := by
  rw [State.ticks_append, State.ticks_quiet hsync hph hquiet hheld]
  exact State.ticks_busCycle (s := { s with oe := false, smp := active, pins := active }) hsync hph hcs hlow hroom hlow
    active (by simpa using hlow) rfl _

/-- A script leaves every stage released. -/
theorem State.ticks_busScript_sync (s : State) (active : Lines) :
    (s.ticks (busScript active s.sync.length)).sync = List.replicate s.sync.length Lines.released := by
  rw [State.ticks_sync, busScript, List.reverse_append, List.reverse_replicate, List.append_assoc,
    List.take_append_of_le_length (by simp), List.take_replicate, Nat.min_eq_left (by omega)]

theorem State.ticks_busScript_pins (s : State) (active : Lines) (stages : Nat) :
    (s.ticks (busScript active stages)).pins = Lines.released := by
  have hlast : busScript active stages =
      (List.replicate 4 active ++ List.replicate (1 + stages) Lines.released) ++ [Lines.released] := by
    rw [List.append_assoc, ← List.replicate_succ', busScript, Nat.add_right_comm]
  rw [hlast, State.ticks_append, State.ticks_cons, State.ticks_nil, State.tick_pins]

/-- A pseudo-operation from resting IDLE with room for a frame, as one update of the state (R96, R97). -/
theorem State.ticks_busScript (hrest : s.resting = true) (hroom : s.room 3) {active : Lines} (hcs : active.cs = true)
    (hlow : active.strobesHigh = false) : s.ticks (busScript active s.sync.length) = { s with
      ph := .idle, addrLatch := active.a, oe := !active.rdN,
      dout := if active.rdN then s.dout else s.rf.read active.a,
      rf := if active.rdN then s.rf.write active.a active.d else s.rf,
      ch := s.ch ++ [if active.rdN then tagWriteTrace else tagReadTrace, addrByte active.a,
                     if active.rdN then active.d else s.rf.read active.a],
      smp := Lines.released, sync := List.replicate s.sync.length Lines.released, pins := Lines.released } := by
  obtain ⟨hph, hquiet, hstages⟩ := State.resting_iff.1 hrest
  have hdelay := synchronizerOnlyDelays s (busScript active s.sync.length)
  rw [take_reverse_append_busScript, State.ticks_quiet_busCycle (s := { s with sync := [] }) rfl hph hquiet hroom
    (fun x hx => hstages x (List.mem_reverse.1 hx)) hcs hlow] at hdelay
  generalize ht : s.ticks (busScript active s.sync.length) = t at hdelay ⊢
  have hsync : t.sync = _ := ht ▸ s.ticks_busScript_sync active
  have hpins : t.pins = _ := ht ▸ s.ticks_busScript_pins active _
  calc t = { ({ t with sync := [], pins := Lines.released } : State) with sync := t.sync, pins := t.pins } := rfl
    _ = _ := by rw [hdelay, hsync, hpins]

/-- READ_TRACE (R96). -/
theorem exec_readTrace (hrest : s.resting = true) (hroom : s.room 3) (addr data : Byte) :
    exec (.readTrace addr data) s = .next { s with
      ph := .idle, addrLatch := addrOfByte addr, oe := true, dout := s.rf.read (addrOfByte addr),
      ch := s.ch ++ [tagReadTrace, addrByte (addrOfByte addr), s.rf.read (addrOfByte addr)],
      smp := Lines.released, sync := List.replicate s.sync.length Lines.released, pins := Lines.released } :=
  congrArg Host.Outcome.next (State.ticks_busScript hrest hroom (active := .reading (addrOfByte addr)) rfl rfl)

/-- WRITE_TRACE (R97). -/
theorem exec_writeTrace (hrest : s.resting = true) (hroom : s.room 3) (addr data : Byte) :
    exec (.writeTrace addr data) s = .next { s with
      ph := .idle, addrLatch := addrOfByte addr, oe := false, rf := s.rf.write (addrOfByte addr) data,
      ch := s.ch ++ [tagWriteTrace, addrByte (addrOfByte addr), data],
      smp := Lines.released, sync := List.replicate s.sync.length Lines.released, pins := Lines.released } :=
  congrArg Host.Outcome.next (State.ticks_busScript hrest hroom (active := .writing (addrOfByte addr) data) rfl rfl)

theorem toNat_addrOfByte {b : Byte} (h : b.toNat < 8) : (addrOfByte b).toNat = b.toNat := by
  simpa [addrOfByte] using h

/-- An address byte is that of the address it names (R55). -/
theorem addrByte_addrOfByte {b : Byte} (h : b.toNat < 8) : addrByte (addrOfByte b) = b := by
  apply BitVec.eq_of_toNat_eq
  simp [addrByte, toNat_addrOfByte h]
  omega

/-- Settles O30: the cycle as one update of the state. -/
theorem readCycleTotalEffect : Obligations.ReadCycleTotalEffect := by
  intro s addr data haddr hrest hroom
  refine ⟨_, exec_readTrace hrest hroom addr data, ?_⟩
  simp [addrByte_addrOfByte haddr, tagReadTrace]

/-- Settles O31: the cycle as one update of the state; the entries are those of a read after a write (R113). -/
theorem writeCycleTotalEffect : Obligations.WriteCycleTotalEffect := by
  intro s addr data haddr hrest hroom
  refine ⟨_, exec_writeTrace hrest hroom addr data, ?_⟩
  simp [addrByte_addrOfByte haddr, tagWriteTrace]

/-! ### The round-trip law -/

/-- After a bus cycle the machine rests. -/
theorem State.resting_of_released {n : Nat} (hph : s.ph = .idle) (hsmp : s.smp = Lines.released)
    (hsync : s.sync = List.replicate n Lines.released) : s.resting = true := by
  rw [State.resting_iff, hsmp, hsync]
  exact ⟨hph, rfl, fun x hx => List.eq_of_mem_replicate hx ▸ rfl⟩

theorem State.room_of_room_add {m n : Nat} (h : s.room (n + m)) : s.room m :=
  Nat.le_trans (by omega) (show s.ch.length + (n + m) ≤ s.chDepth from h)

/-- READ_TRACE takes up the room of one frame. -/
theorem exec_readTrace_room {n : Nat} (hrest : s.resting = true) (hroom : s.room (n + 3)) (addr data : Byte) :
    ∃ t, exec (.readTrace addr data) s = .next t ∧ t.resting = true ∧ t.room n ∧ t.rf = s.rf := by
  refine ⟨_, exec_readTrace hrest (State.room_of_room_add hroom) addr data, ?_, ?_, rfl⟩
  · exact State.resting_of_released rfl rfl rfl
  · simpa [State.room, Nat.add_assoc, Nat.add_comm] using hroom

/-- WRITE_TRACE takes up the room of one frame. -/
theorem exec_writeTrace_room {n : Nat} (hrest : s.resting = true) (hroom : s.room (n + 3)) (addr data : Byte) :
    ∃ t, exec (.writeTrace addr data) s = .next t ∧ t.resting = true ∧ t.room n ∧
      t.rf = s.rf.write (addrOfByte addr) data ∧
      t.ch = s.ch ++ [tagWriteTrace, addrByte (addrOfByte addr), data] := by
  refine ⟨_, exec_writeTrace hrest (State.room_of_room_add hroom) addr data, ?_, ?_, rfl, rfl⟩
  · exact State.resting_of_released rfl rfl rfl
  · simpa [State.room, Nat.add_assoc, Nat.add_comm] using hroom

/-- Bytes taken off the channel make room. -/
theorem State.room_of_drop (s : State) {m n : Nat} (k : Nat) (hroom : s.room (n + m)) :
    (s.ch.drop k).length + n ≤ s.chDepth := by
  have hlen : s.ch.length + (n + m) ≤ s.chDepth := hroom
  rw [List.length_drop]
  omega

/-- A cycle or host move that writes no byte at the address leaves its entry, a resting machine and room for all but a
frame. -/
theorem exec_elsewhere {addr : Byte} (haddr : addr.toNat < 8) {i : Instr} (hi : writesOnlyElsewhere addr i = true)
    {n : Nat} (hrest : s.resting = true) (hroom : s.room (n + 3)) :
    ∃ t, exec i s = .next t ∧ t.resting = true ∧ t.room n ∧
      t.rf.read (addrOfByte addr) = s.rf.read (addrOfByte addr) := by
  cases i
  case readTrace b data =>
    obtain ⟨t, he, htrest, htroom, hrf⟩ := exec_readTrace_room hrest hroom b data
    exact ⟨t, he, htrest, htroom, by rw [hrf]⟩
  case writeTrace b data =>
    have hi : (decide (b.toNat < 8) && !(b == addr)) = true := hi
    obtain ⟨hb, hne⟩ : b.toNat < 8 ∧ b ≠ addr := by simpa using hi
    have haddrNe : addrOfByte addr ≠ addrOfByte b := fun h => hne (by
      rw [← addrByte_addrOfByte hb, ← h, addrByte_addrOfByte haddr])
    obtain ⟨t, he, htrest, htroom, hrf, -⟩ := exec_writeTrace_room hrest hroom b data
    exact ⟨t, he, htrest, htroom, by rw [hrf, Memory.read_write, if_neg haddrNe]⟩
  case hostPop =>
    obtain ⟨hb, log, h⟩ := s.popByte_eq_with
    exact ⟨_, congrArg Host.Outcome.next h, hrest, s.room_of_drop 1 hroom, rfl⟩
  case event tag b data =>
    obtain ⟨hb, log, h⟩ := s.hostThree_eq_with tag b data
    exact ⟨_, congrArg Host.Outcome.next h, hrest, s.room_of_drop 3 hroom, rfl⟩
  all_goals cases hi

theorem State.execAll_elsewhere {addr : Byte} (haddr : addr.toNat < 8) {is : List Instr}
    (his : ∀ i ∈ is, writesOnlyElsewhere addr i = true) {n : Nat} (hrest : s.resting = true)
    (hroom : s.room (n + 3 * is.length)) :
    ∃ t, s.execAll is = .next t ∧ t.resting = true ∧ t.room n ∧
      t.rf.read (addrOfByte addr) = s.rf.read (addrOfByte addr) := by
  induction is generalizing s with
  | nil => exact ⟨s, rfl, hrest, hroom, rfl⟩
  | cons i is ih =>
    obtain ⟨t, hi, htrest, htroom, htread⟩ := exec_elsewhere haddr (his i (by simp)) hrest
      (n := n + 3 * is.length) (by simpa [Nat.mul_add, Nat.add_assoc] using hroom)
    obtain ⟨u, hu, hurest, huroom, huread⟩ := ih (fun j hj => his j (by simp [hj])) htrest htroom
    exact ⟨u, (s.execAll_cons hi is).trans hu, hurest, huroom, huread.trans htread⟩

/-- Settles O32: the write leaves a resting machine whose entry is the byte, what is between keeps both, the read reports
it. -/
theorem roundTripLaw : Obligations.RoundTripLaw := by
  intro s addr v x between haddr hrest hroom hbetween
  obtain ⟨t, hwrite, htrest, htroom, htrf, htch⟩ := exec_writeTrace_room (n := 3 + 3 * between.length) hrest
    (by convert hroom using 1; omega) addr v
  obtain ⟨w, hw, hwrest, hwroom, hwread⟩ := State.execAll_elsewhere haddr hbetween htrest htroom
  have hread : w.rf.read (addrOfByte addr) = v := by rw [hwread, htrf, Memory.read_write, if_pos rfl]
  refine ⟨t, w, _, hwrite, hw, exec_readTrace hwrest hwroom addr x, ?_⟩
  simp [htch, hread, addrByte_addrOfByte haddr, tagReadTrace, tagWriteTrace]

end Sys2Proof.Machine

/-! Reset and SAMPLE, what nothing depends on (interrupt lines, data bytes), and the round-trip law over ticks and
pops. -/

namespace Sys2Proof.Machine

variable {s : State}

/-! ### Reset and SAMPLE -/

/-- Settles O1: each field of the reset state is the one stated. -/
theorem resetStateOfTheSpec : Obligations.ResetStateOfTheSpec :=
  ⟨fun _ => rfl, rfl, rfl, rfl, rfl, rfl, rfl, rfl, rfl, rfl, rfl, rfl, rfl, rfl, rfl, Nat.le_add_left 1 _⟩

/-- Settles O2: the reset samples are not selected, so tick 0 holds, with one stage. -/
theorem firstTickSamplesAndHolds : Obligations.FirstTickSamplesAndHolds := by
  intro p
  refine ⟨by rw [State.stepOp_idle rfl]; rfl, ?_⟩
  rw [step_tick_used (p := p) rfl, State.tick_idle_quiet rfl rfl rfl]
  rfl

/-- Settles O4: the shift of R73 by position; the last stage is the one the Cycle Decoder reads. -/
theorem sampleShiftsTheChain : Obligations.SampleShiftsTheChain := by
  intro s x xs hsync
  refine ⟨s.sampleLines, rfl, ?_, ?_, fun n hn => ?_, ?_, rfl⟩
  · simp
  · simp [hsync]
  · simp only [State.sampleLines_sync, hsync, List.getElem?_dropLast]
    simp [hn]
  · simp [hsync, List.getLast?_cons]

/-! ### Interrupt lines -/

/-- The last stage of a chain changed line by line. -/
theorem getLastD_map (f : Lines → Lines) (sync : List Lines) (p : Lines) :
    (sync.map f).getLastD (f p) = f (sync.getLastD p) := by
  simp [Option.getD_map]

theorem State.cycleDecoder_noIrq (s : State) (cs rdN wrN : Bool) :
    s.noIrq.cycleDecoder cs rdN wrN = { s.cycleDecoder cs rdN wrN with
      smp := s.smp.noIrq, sync := s.sync.map Lines.noIrq, pins := s.pins.noIrq } :=
  s.cycleDecoder_sampler (l := s.smp.noIrq) cs rdN wrN rfl rfl (s.sync.map Lines.noIrq) s.pins.noIrq

/-- A tick without the interrupt lines' levels is the tick on lines without them. -/
theorem State.tick_noIrq (s : State) (p : Lines) : (s.tick p).noIrq = s.noIrq.tick p.noIrq := by
  rw [State.tick_eq, State.tick_eq, State.cycleDecoder_noIrq]
  simp only [State.noIrq, getLastD_map, List.map_dropLast, List.map_cons]
  rfl

/-- Settles O53: the two ticks agree without the levels, because each is a tick on lines without them. -/
theorem interruptLinesAreInert : Obligations.InterruptLinesAreInert := by
  intro s u p q hstate hpins
  rw [State.tick_noIrq, State.tick_noIrq, hstate, hpins]

/-! ### Data bytes -/

/-- R81 without the data: what the Cycle Decoder makes of the control part. -/
def Control.react (c : Control) : Control :=
  let ready := decide (c.queued < c.chDepth)
  match c.ph with
  | .idle =>
    if c.smp.quiet || !ready then { c with oe := false }
    else { c with oe := false, queued := c.queued + 1, addrLatch := c.smp.a, ph := .prepare }
  | .prepare =>
    if c.smp.strobesHigh || !ready then c
    else { c with queued := c.queued + 1, ph := if c.smp.rdN then .write else .read }
  | .read => if ready then { c with oe := true, queued := c.queued + 1, ph := .cleanup } else c
  | .write => if ready then { c with queued := c.queued + 1, ph := .cleanup } else c
  | .cleanup => if c.smp.strobesHigh then { c with ph := .idle } else c

theorem State.cycleDecoder_control (s : State) :
    (s.cycleDecoder s.smp.cs s.smp.rdN s.smp.wrN).control = s.control.react := by
  have houtcome := s.cycleDecoder_cases s.smp.cs s.smp.rdN s.smp.wrN
  have hready : s.ready = decide (s.ch.length < s.chDepth) := rfl
  generalize s.cycleDecoder s.smp.cs s.smp.rdN s.smp.wrN = t at houtcome ⊢
  rcases houtcome with h | h | h | h | h | h | h | h | h | h | h | h <;> obtain ⟨hph, h⟩ := h
  all_goals simp_all [State.control, Control.react, Lines.noData, Lines.quiet, Lines.strobesHigh]
  all_goals grind

/-- The control part after a tick is made of control parts alone. -/
theorem State.tick_control (s : State) (p : Lines) : (s.tick p).control = { s.control.react with
    smp := s.control.sync.getLastD p.noData, sync := (p.noData :: s.control.sync).dropLast } := by
  rw [State.tick_eq, ← State.cycleDecoder_control]
  simp only [State.control, getLastD_map, List.map_dropLast, List.map_cons]

theorem State.stepVector_of_control (s : State) : s.stepVector =
    stepBits s.control.ph (decide (s.control.queued < s.control.chDepth)) s.control.smp.cs s.control.smp.rdN
      s.control.smp.wrN := rfl

/-- Settles O54: the step vector and the control part after a tick are functions of the control part. -/
theorem dataNeverSteers : Obligations.DataNeverSteers := by
  intro s u p q hcontrol hpins
  constructor
  · rw [State.stepOp, State.stepOp, State.stepVector_of_control, State.stepVector_of_control, hcontrol]
  · rw [State.tick_control, State.tick_control, hcontrol, hpins]

/-! ### The round-trip law over ticks and pops -/

/-- A pop moves no entry, and a tick only through the write port (R112, R113). -/
theorem step_keeps_entry {m : Input} (hm : m = .hostPop ∨ ∃ q, m = .tick q) {a : Addr}
    (hport : ∀ q, m = .tick q → ¬(s.rfWrEn = true ∧ s.addrLatch = a)) :
    ∃ t, step (s.withInput m) = .next t ∧ t.rf.read a = s.rf.read a := by
  rcases hm with rfl | ⟨q, rfl⟩
  · obtain ⟨hb, log, h⟩ := (s.withInput .hostPop).accept.popByte_eq_with
    exact ⟨_, step_of_other_move rfl rfl (congrArg Host.Outcome.next h), rfl⟩
  · exact ⟨_, step_tick_used (p := q) rfl,
      (State.tick_read _ q a).trans (if_neg fun h => hport q rfl ⟨h.1, h.2.symm⟩)⟩

/-- Moves of which none writes the entry leave it as it was. -/
theorem State.takeMoves_keeps_entry {a : Addr} {ms : List Input} (hms : ∀ m ∈ ms, m = .hostPop ∨ ∃ q, m = .tick q)
    (hport : ∀ k q w, ms[k]? = some (.tick q) → s.takeMoves (ms.take k) = .next w →
      ¬(w.rfWrEn = true ∧ w.addrLatch = a)) :
    ∃ t, s.takeMoves ms = .next t ∧ t.rf.read a = s.rf.read a := by
  induction ms generalizing s with
  | nil => exact ⟨s, rfl, rfl⟩
  | cons m ms ih =>
    obtain ⟨t, hstep, htread⟩ := step_keeps_entry (hms m (by simp)) (s := s) fun q hq => hport 0 q s (by simp [hq]) rfl
    obtain ⟨u, htake, huread⟩ := ih (s := t) (fun x hx => hms x (by simp [hx])) fun k q w hk hw =>
      hport (k + 1) q w (by simpa using hk) ((s.takeMoves_cons hstep _).trans hw)
    exact ⟨u, (s.takeMoves_cons hstep ms).trans htake, huread.trans htread⟩

/-- Settles O55: the WRITE.EXEC tick stores the sampled data, the moves keep the entry, and READ.EXEC reads it. -/
theorem readYieldsTheLastWrite : Obligations.ReadYieldsTheLastWrite := by
  intro s p ms hph hready hms hport
  have hwrite : step (s.withInput (.tick p)) = .next _ := step_tick_used rfl
  have hstored : ((s.withInput (.tick p)).tick p).rf.read s.addrLatch = s.smp.d :=
    (State.tick_read ..).trans (if_pos ⟨(State.rfWrEn_iff_ph_ready _).2 ⟨hph, hready⟩, rfl⟩)
  obtain ⟨t, htake, htread⟩ := State.takeMoves_keeps_entry hms fun k q w hk hw =>
    hport k q w hk ((s.takeMoves_cons hwrite _).trans hw)
  have hentry : t.rf.read s.addrLatch = s.smp.d := htread.trans hstored
  refine ⟨t, (s.takeMoves_cons hwrite ms).trans htake, hentry, fun htph htready hlatch q => ?_⟩
  have hop : (t.withInput (.tick q)).stepOp = .ok .readExec := by
    rw [State.stepOp_read (by exact htph), if_pos (by exact htready)]
  have hread := State.tick_of_stepOp hop (congrArg Host.Outcome.next (State.readData_ready _ htready)) q
  have hentry : (t.withInput (.tick q)).rf.read (t.withInput (.tick q)).addrLatch = s.smp.d := hlatch ▸ hentry
  refine ⟨_, t.takeMoves_cons (step_tick_used (p := q) rfl) [], ?_⟩
  rw [hread, hentry]
  exact ⟨rfl, rfl, rfl⟩

end Sys2Proof.Machine
